-- ==== Sys2Proof/Word.lean ====
section
/-!
DEFINITION. The word types of the block (00_scope.md R6): every register value, FIFO element and message byte is an
unsigned 8-bit value; nothing in the block is signed.
-/

namespace Sys2Proof

/-- A byte: a register value, a FIFO element, a message byte (R6, `REG_W` = 8 in R4). -/
abbrev Byte := BitVec 8

/-- A register address, 0x00 to 0x1F (R10, R60). -/
abbrev RegAddr := BitVec 5

/-- The chip-address field of a command byte, and `CHIP_ADDR` itself (R5, R92). -/
abbrev ChipAddr := BitVec 2

end Sys2Proof
end

