-- ==== Sys2Proof/Syntax.lean ====
section
/-!
DEFINITION. The syntax of the block's operations: its registers (10_state.md R10), the modes (41_wakeup_sequencer.md R131)
and `Instr`, one constructor for every row of spec/opcode_table.json (30_encoding.md R91, R95, R96).
-/

namespace Sys2Proof

/-- The two channels (00_scope.md R1, R6). -/
inductive Chan where
  | a
  | b
deriving DecidableEq, Repr

/-- The other channel, written X' by the spec (R6). -/
def Chan.other : Chan → Chan
  | .a => .b
  | .b => .a

/-- The three modes (R131): INACTIVE, WAKEUP (the source's wake-up-request), OPERATE. -/
inductive Mode where
  | inactive
  | wakeup
  | operate
deriving DecidableEq, Repr, Inhabited

/-- The sixteen storage registers without effect, 0x0E to 0x1D in address order (R40). -/
inductive StoreReg where
  | ledCtrl  -- 0x0E
  | trigger  -- 0x0F
  | cqCfgA  -- 0x10
  | cqCfgB  -- 0x11
  | cyclTmrA  -- 0x12
  | cyclTmrB  -- 0x13
  | deviceDlyA  -- 0x14
  | deviceDlyB  -- 0x15
  | trigAssgnA  -- 0x16
  | trigAssgnB  -- 0x17
  | lCnfgA  -- 0x18
  | lCnfgB  -- 0x19
  | ioStCfgA  -- 0x1A
  | ioStCfgB  -- 0x1B
  | drvrCurrLim  -- 0x1C
  | clock  -- 0x1D
deriving DecidableEq, Repr

/-- The 32 registers (R10), those of an A/B pair under one name with their channel (R61). -/
inductive Reg where
  | txRxData (x : Chan)   -- 0x00, 0x01
  | interrupt             -- 0x02
  | interruptEn           -- 0x03
  | rxFifoLvl (x : Chan)  -- 0x04, 0x05
  | cqCtrl (x : Chan)     -- 0x06, 0x07
  | cqErr (x : Chan)      -- 0x08, 0x09
  | msgCtrl (x : Chan)    -- 0x0A, 0x0B
  | chanStat (x : Chan)   -- 0x0C, 0x0D
  | store (r : StoreReg)  -- 0x0E to 0x1D
  | status                -- 0x1E
  | revId                 -- 0x1F
deriving DecidableEq, Repr

/-- The operations, one constructor per row of spec/opcode_table.json. `chip` is the chip-address field (word bits 14:13),
`data` the data byte of a write, `sdi` the byte a read shifts in and ignores (R91), `ch` the channel bit of a mode request
(R96). `wr`, `rd` and `setmode` are the table's generic rows: their words are also words of the rows below them, which
name the register or the mode. -/
inductive Instr where
  | wr (chip : ChipAddr) (addr : RegAddr) (data : Byte)
  | rd (chip : ChipAddr) (addr : RegAddr) (sdi : Byte)
  | wrTxRxDataA (chip : ChipAddr) (data : Byte)
  | rdTxRxDataA (chip : ChipAddr) (sdi : Byte)
  | wrTxRxDataB (chip : ChipAddr) (data : Byte)
  | rdTxRxDataB (chip : ChipAddr) (sdi : Byte)
  | wrInterrupt (chip : ChipAddr) (data : Byte)
  | rdInterrupt (chip : ChipAddr) (sdi : Byte)
  | wrInterruptEn (chip : ChipAddr) (data : Byte)
  | rdInterruptEn (chip : ChipAddr) (sdi : Byte)
  | wrRxFIFOLvlA (chip : ChipAddr) (data : Byte)
  | rdRxFIFOLvlA (chip : ChipAddr) (sdi : Byte)
  | wrRxFIFOLvlB (chip : ChipAddr) (data : Byte)
  | rdRxFIFOLvlB (chip : ChipAddr) (sdi : Byte)
  | wrCQCtrlA (chip : ChipAddr) (data : Byte)
  | rdCQCtrlA (chip : ChipAddr) (sdi : Byte)
  | wrCQCtrlB (chip : ChipAddr) (data : Byte)
  | rdCQCtrlB (chip : ChipAddr) (sdi : Byte)
  | wrCQErrA (chip : ChipAddr) (data : Byte)
  | rdCQErrA (chip : ChipAddr) (sdi : Byte)
  | wrCQErrB (chip : ChipAddr) (data : Byte)
  | rdCQErrB (chip : ChipAddr) (sdi : Byte)
  | wrMsgCtrlA (chip : ChipAddr) (data : Byte)
  | rdMsgCtrlA (chip : ChipAddr) (sdi : Byte)
  | wrMsgCtrlB (chip : ChipAddr) (data : Byte)
  | rdMsgCtrlB (chip : ChipAddr) (sdi : Byte)
  | wrChanStatA (chip : ChipAddr) (data : Byte)
  | rdChanStatA (chip : ChipAddr) (sdi : Byte)
  | wrChanStatB (chip : ChipAddr) (data : Byte)
  | rdChanStatB (chip : ChipAddr) (sdi : Byte)
  | wrLEDCtrl (chip : ChipAddr) (data : Byte)
  | rdLEDCtrl (chip : ChipAddr) (sdi : Byte)
  | wrTrigger (chip : ChipAddr) (data : Byte)
  | rdTrigger (chip : ChipAddr) (sdi : Byte)
  | wrCQCfgA (chip : ChipAddr) (data : Byte)
  | rdCQCfgA (chip : ChipAddr) (sdi : Byte)
  | wrCQCfgB (chip : ChipAddr) (data : Byte)
  | rdCQCfgB (chip : ChipAddr) (sdi : Byte)
  | wrCyclTmrA (chip : ChipAddr) (data : Byte)
  | rdCyclTmrA (chip : ChipAddr) (sdi : Byte)
  | wrCyclTmrB (chip : ChipAddr) (data : Byte)
  | rdCyclTmrB (chip : ChipAddr) (sdi : Byte)
  | wrDeviceDlyA (chip : ChipAddr) (data : Byte)
  | rdDeviceDlyA (chip : ChipAddr) (sdi : Byte)
  | wrDeviceDlyB (chip : ChipAddr) (data : Byte)
  | rdDeviceDlyB (chip : ChipAddr) (sdi : Byte)
  | wrTrigAssgnA (chip : ChipAddr) (data : Byte)
  | rdTrigAssgnA (chip : ChipAddr) (sdi : Byte)
  | wrTrigAssgnB (chip : ChipAddr) (data : Byte)
  | rdTrigAssgnB (chip : ChipAddr) (sdi : Byte)
  | wrLCnfgA (chip : ChipAddr) (data : Byte)
  | rdLCnfgA (chip : ChipAddr) (sdi : Byte)
  | wrLCnfgB (chip : ChipAddr) (data : Byte)
  | rdLCnfgB (chip : ChipAddr) (sdi : Byte)
  | wrIOStCfgA (chip : ChipAddr) (data : Byte)
  | rdIOStCfgA (chip : ChipAddr) (sdi : Byte)
  | wrIOStCfgB (chip : ChipAddr) (data : Byte)
  | rdIOStCfgB (chip : ChipAddr) (sdi : Byte)
  | wrDrvrCurrLim (chip : ChipAddr) (data : Byte)
  | rdDrvrCurrLim (chip : ChipAddr) (sdi : Byte)
  | wrClock (chip : ChipAddr) (data : Byte)
  | rdClock (chip : ChipAddr) (sdi : Byte)
  | wrStatus (chip : ChipAddr) (data : Byte)
  | rdStatus (chip : ChipAddr) (sdi : Byte)
  | wrRevID (chip : ChipAddr) (data : Byte)
  | rdRevID (chip : ChipAddr) (sdi : Byte)
  | setmode (ch : Chan) (mode : BitVec 2)
  | setmodeInactive (ch : Chan)
  | setmodeWakeup (ch : Chan)
  | setmodeOperate (ch : Chan)
  | setmodeReserved (ch : Chan)
deriving DecidableEq, Repr

end Sys2Proof
end

