-- ==== Sys2Proof/WellFormed.lean ====
section
/-!
DEFINITION. Well-formed instructions: the form the decoder answers in. Every operand type is exactly as wide as its field
(30_encoding.md R91, R96), so no operand can be out of range; what is left to check is that an instruction stands under the
opcode-table row that names its register or mode, not under a generic row (`wr`, `rd`, `setmode`), whose words the named
rows share (R95). An instruction of a generic row has the same meaning as its named row (`canonical` in Decode.lean).
-/

namespace Sys2Proof

/-- Check 1: not the generic write row; its words are those of the 32 rows `WR_<register>` (R95). -/
def notGenericWrite : Instr → Bool
  | .wr _ _ _ => false
  | _ => true

/-- Check 2: not the generic read row; its words are those of the 32 rows `RD_<register>` (R95). -/
def notGenericRead : Instr → Bool
  | .rd _ _ _ => false
  | _ => true

/-- Check 3: not the generic mode-request row; its words are those of the four rows `SETMODE_…` (R96, R97 (f)). -/
def notGenericSetmode : Instr → Bool
  | .setmode _ _ => false
  | _ => true

/-- The instruction stands under the row that names its register or its mode. -/
def WellFormed (i : Instr) : Bool := notGenericWrite i && notGenericRead i && notGenericSetmode i

end Sys2Proof
end

