-- ==== Sys2Proof/Decode.lean ====
section
/-!
DEFINITION. The decoder and, after it, the encoder (30_encoding.md R91 to R98). A frame is what reaches the block: a 16-bit
SPI transaction (format `SPI16`) or a 3-bit mode request (format `CMD3`). A frame of another length is rejected by name.
-/

namespace Sys2Proof

/-- A frame of one of the two formats: `SPI16` (R91), bit 15 the first on the wire, or `CMD3` (R96). -/
inductive Frame where
  | spi16 (w : BitVec 16)
  | cmd3 (w : BitVec 3)
deriving DecidableEq, Repr

/-- The 16 bits of an `SPI16` transaction from its fields (R91, R92): rw, chip, addr, data from bit 15 down. -/
def spiWord (rw : BitVec 1) (chip : ChipAddr) (addr : RegAddr) (data : Byte) : BitVec 16 :=
  rw ++ chip ++ addr ++ data

/-- Field `rw`, word bit 15: 1 is read, 0 is write (R91). -/
def fieldRw (w : BitVec 16) : BitVec 1 := w.extractLsb' 15 1
/-- Field `chip`, word bits 14:13 (R91). -/
def fieldChip (w : BitVec 16) : ChipAddr := w.extractLsb' 13 2
/-- Field `addr`, word bits 12:8 (R91). -/
def fieldAddr (w : BitVec 16) : RegAddr := w.extractLsb' 8 5
/-- Field `data`, word bits 7:0 (R91). -/
def fieldData (w : BitVec 16) : Byte := w.extractLsb' 0 8

/-- The command byte `(rw << 7) | (chip << 5) | addr` (R92). -/
def commandByte (rw : BitVec 1) (chip : ChipAddr) (addr : RegAddr) : Byte := rw ++ chip ++ addr

/-- The register at an address (R10, R61): every one of the 32 addresses is assigned (R60). -/
def Reg.ofAddr (a : RegAddr) : Reg :=
  match a.toNat with
  | 0 => .txRxData .a
  | 1 => .txRxData .b
  | 2 => .interrupt
  | 3 => .interruptEn
  | 4 => .rxFifoLvl .a
  | 5 => .rxFifoLvl .b
  | 6 => .cqCtrl .a
  | 7 => .cqCtrl .b
  | 8 => .cqErr .a
  | 9 => .cqErr .b
  | 10 => .msgCtrl .a
  | 11 => .msgCtrl .b
  | 12 => .chanStat .a
  | 13 => .chanStat .b
  | 14 => .store .ledCtrl
  | 15 => .store .trigger
  | 16 => .store .cqCfgA
  | 17 => .store .cqCfgB
  | 18 => .store .cyclTmrA
  | 19 => .store .cyclTmrB
  | 20 => .store .deviceDlyA
  | 21 => .store .deviceDlyB
  | 22 => .store .trigAssgnA
  | 23 => .store .trigAssgnB
  | 24 => .store .lCnfgA
  | 25 => .store .lCnfgB
  | 26 => .store .ioStCfgA
  | 27 => .store .ioStCfgB
  | 28 => .store .drvrCurrLim
  | 29 => .store .clock
  | 30 => .status
  | _ => .revId

/-- The address of a register (R10). -/
def Reg.addr : Reg → RegAddr
  | .txRxData .a => 0x00#5
  | .txRxData .b => 0x01#5
  | .interrupt => 0x02#5
  | .interruptEn => 0x03#5
  | .rxFifoLvl .a => 0x04#5
  | .rxFifoLvl .b => 0x05#5
  | .cqCtrl .a => 0x06#5
  | .cqCtrl .b => 0x07#5
  | .cqErr .a => 0x08#5
  | .cqErr .b => 0x09#5
  | .msgCtrl .a => 0x0A#5
  | .msgCtrl .b => 0x0B#5
  | .chanStat .a => 0x0C#5
  | .chanStat .b => 0x0D#5
  | .store .ledCtrl => 0x0E#5
  | .store .trigger => 0x0F#5
  | .store .cqCfgA => 0x10#5
  | .store .cqCfgB => 0x11#5
  | .store .cyclTmrA => 0x12#5
  | .store .cyclTmrB => 0x13#5
  | .store .deviceDlyA => 0x14#5
  | .store .deviceDlyB => 0x15#5
  | .store .trigAssgnA => 0x16#5
  | .store .trigAssgnB => 0x17#5
  | .store .lCnfgA => 0x18#5
  | .store .lCnfgB => 0x19#5
  | .store .ioStCfgA => 0x1A#5
  | .store .ioStCfgB => 0x1B#5
  | .store .drvrCurrLim => 0x1C#5
  | .store .clock => 0x1D#5
  | .status => 0x1E#5
  | .revId => 0x1F#5

/-- The opcode-table row for a write of a register (R95). -/
def writeInstr (r : Reg) (chip : ChipAddr) (data : Byte) : Instr :=
  match r with
  | .txRxData .a => .wrTxRxDataA chip data
  | .txRxData .b => .wrTxRxDataB chip data
  | .interrupt => .wrInterrupt chip data
  | .interruptEn => .wrInterruptEn chip data
  | .rxFifoLvl .a => .wrRxFIFOLvlA chip data
  | .rxFifoLvl .b => .wrRxFIFOLvlB chip data
  | .cqCtrl .a => .wrCQCtrlA chip data
  | .cqCtrl .b => .wrCQCtrlB chip data
  | .cqErr .a => .wrCQErrA chip data
  | .cqErr .b => .wrCQErrB chip data
  | .msgCtrl .a => .wrMsgCtrlA chip data
  | .msgCtrl .b => .wrMsgCtrlB chip data
  | .chanStat .a => .wrChanStatA chip data
  | .chanStat .b => .wrChanStatB chip data
  | .store .ledCtrl => .wrLEDCtrl chip data
  | .store .trigger => .wrTrigger chip data
  | .store .cqCfgA => .wrCQCfgA chip data
  | .store .cqCfgB => .wrCQCfgB chip data
  | .store .cyclTmrA => .wrCyclTmrA chip data
  | .store .cyclTmrB => .wrCyclTmrB chip data
  | .store .deviceDlyA => .wrDeviceDlyA chip data
  | .store .deviceDlyB => .wrDeviceDlyB chip data
  | .store .trigAssgnA => .wrTrigAssgnA chip data
  | .store .trigAssgnB => .wrTrigAssgnB chip data
  | .store .lCnfgA => .wrLCnfgA chip data
  | .store .lCnfgB => .wrLCnfgB chip data
  | .store .ioStCfgA => .wrIOStCfgA chip data
  | .store .ioStCfgB => .wrIOStCfgB chip data
  | .store .drvrCurrLim => .wrDrvrCurrLim chip data
  | .store .clock => .wrClock chip data
  | .status => .wrStatus chip data
  | .revId => .wrRevID chip data

/-- The opcode-table row for a read of a register (R95). -/
def readInstr (r : Reg) (chip : ChipAddr) (sdi : Byte) : Instr :=
  match r with
  | .txRxData .a => .rdTxRxDataA chip sdi
  | .txRxData .b => .rdTxRxDataB chip sdi
  | .interrupt => .rdInterrupt chip sdi
  | .interruptEn => .rdInterruptEn chip sdi
  | .rxFifoLvl .a => .rdRxFIFOLvlA chip sdi
  | .rxFifoLvl .b => .rdRxFIFOLvlB chip sdi
  | .cqCtrl .a => .rdCQCtrlA chip sdi
  | .cqCtrl .b => .rdCQCtrlB chip sdi
  | .cqErr .a => .rdCQErrA chip sdi
  | .cqErr .b => .rdCQErrB chip sdi
  | .msgCtrl .a => .rdMsgCtrlA chip sdi
  | .msgCtrl .b => .rdMsgCtrlB chip sdi
  | .chanStat .a => .rdChanStatA chip sdi
  | .chanStat .b => .rdChanStatB chip sdi
  | .store .ledCtrl => .rdLEDCtrl chip sdi
  | .store .trigger => .rdTrigger chip sdi
  | .store .cqCfgA => .rdCQCfgA chip sdi
  | .store .cqCfgB => .rdCQCfgB chip sdi
  | .store .cyclTmrA => .rdCyclTmrA chip sdi
  | .store .cyclTmrB => .rdCyclTmrB chip sdi
  | .store .deviceDlyA => .rdDeviceDlyA chip sdi
  | .store .deviceDlyB => .rdDeviceDlyB chip sdi
  | .store .trigAssgnA => .rdTrigAssgnA chip sdi
  | .store .trigAssgnB => .rdTrigAssgnB chip sdi
  | .store .lCnfgA => .rdLCnfgA chip sdi
  | .store .lCnfgB => .rdLCnfgB chip sdi
  | .store .ioStCfgA => .rdIOStCfgA chip sdi
  | .store .ioStCfgB => .rdIOStCfgB chip sdi
  | .store .drvrCurrLim => .rdDrvrCurrLim chip sdi
  | .store .clock => .rdClock chip sdi
  | .status => .rdStatus chip sdi
  | .revId => .rdRevID chip sdi

/-- The decoder of a 16-bit transaction (R95): `rw` selects the operation, `addr` the register. Total: every word is an
operation (R97 (a)); the chip-address field is an operand, compared with `CHIP_ADDR` when the operation runs (R110). -/
def decodeSpi (w : BitVec 16) : Instr :=
  if fieldRw w = 1#1 then readInstr (Reg.ofAddr (fieldAddr w)) (fieldChip w) (fieldData w)
  else writeInstr (Reg.ofAddr (fieldAddr w)) (fieldChip w) (fieldData w)

/-- The channel bit of a mode request: 0 is A, 1 is B (R96). -/
def chanOfBit (c : BitVec 1) : Chan := if c = 0#1 then .a else .b

/-- The bit of a channel in a mode request (R96). -/
def bitOfChan : Chan → BitVec 1
  | .a => 0#1
  | .b => 1#1

/-- The opcode-table row of a mode request whose mode bits are `m` (R96); 0b11 is the reserved row (R97 (f)). -/
def modeInstr (m : BitVec 2) (ch : Chan) : Instr :=
  match m.toNat with
  | 0 => .setmodeInactive ch
  | 1 => .setmodeWakeup ch
  | 2 => .setmodeOperate ch
  | _ => .setmodeReserved ch

/-- The decoder of a mode request (R96): bit 2 the channel, bits 1:0 the mode. -/
def decodeCmd3 (w : BitVec 3) : Instr := modeInstr (w.extractLsb' 0 2) (chanOfBit (w.extractLsb' 2 1))

/-- The code of a mode on the command port (R96, R131). -/
def modeCode : Mode → BitVec 2
  | .inactive => 0b00#2
  | .wakeup => 0b01#2
  | .operate => 0b10#2

/-- The 3-bit word of a mode request (R96). -/
def cmdWord (ch : Chan) (mode : BitVec 2) : BitVec 3 := bitOfChan ch ++ mode

/-- The decoder, total on frames. -/
def decode : Frame → Instr
  | .spi16 w => decodeSpi w
  | .cmd3 w => decodeCmd3 w

/-- Why a run of bits is no frame. -/
inductive DecodeReject where
  /-- fewer than 16 clocks: the block performs no register access (R97 (c)) -/
  | shortTransaction
  /-- more than 16 clocks: the spec gives no meaning (R97 (c)) -/
  | longTransaction
deriving DecidableEq, Repr

/-- A transaction of any number of clocks: 16 make a frame, any other number is rejected by name, whatever the chip
field of the first 16 bits (R97 (c), R98; for more than 16 clocks a DESIGN CHOICE, notes/assumptions/26.md). -/
def decodeClocks (clocks : Nat) (sdi : BitVec 16) : Except DecodeReject Instr :=
  if clocks < 16 then .error .shortTransaction
  else if 16 < clocks then .error .longTransaction
  else .ok (decodeSpi sdi)

/-- The instruction the decoder reads from an opcode-table word: 16 bits are an `SPI16` transaction, up to 8 bits (the
table's 3 in whole bytes) a `CMD3` word. -/
def decodeTableWord (nbits w : Nat) : Option Instr :=
  if nbits = 16 then
    if w < 65536 then (decodeClocks nbits (BitVec.ofNat 16 w)).toOption else none
  else if nbits ≤ 8 then
    if w < 8 then some (decodeCmd3 (BitVec.ofNat 3 w)) else none
  else none

/-! ## The encoder -/

/-- The frame of an instruction, from the table's patterns (R91, R95, R96). -/
def encode : Instr → Frame
  | .wr chip addr data => .spi16 (spiWord 0#1 chip addr data)
  | .rd chip addr sdi => .spi16 (spiWord 1#1 chip addr sdi)
  | .wrTxRxDataA chip data => .spi16 (spiWord 0#1 chip 0b00000#5 data)
  | .rdTxRxDataA chip sdi => .spi16 (spiWord 1#1 chip 0b00000#5 sdi)
  | .wrTxRxDataB chip data => .spi16 (spiWord 0#1 chip 0b00001#5 data)
  | .rdTxRxDataB chip sdi => .spi16 (spiWord 1#1 chip 0b00001#5 sdi)
  | .wrInterrupt chip data => .spi16 (spiWord 0#1 chip 0b00010#5 data)
  | .rdInterrupt chip sdi => .spi16 (spiWord 1#1 chip 0b00010#5 sdi)
  | .wrInterruptEn chip data => .spi16 (spiWord 0#1 chip 0b00011#5 data)
  | .rdInterruptEn chip sdi => .spi16 (spiWord 1#1 chip 0b00011#5 sdi)
  | .wrRxFIFOLvlA chip data => .spi16 (spiWord 0#1 chip 0b00100#5 data)
  | .rdRxFIFOLvlA chip sdi => .spi16 (spiWord 1#1 chip 0b00100#5 sdi)
  | .wrRxFIFOLvlB chip data => .spi16 (spiWord 0#1 chip 0b00101#5 data)
  | .rdRxFIFOLvlB chip sdi => .spi16 (spiWord 1#1 chip 0b00101#5 sdi)
  | .wrCQCtrlA chip data => .spi16 (spiWord 0#1 chip 0b00110#5 data)
  | .rdCQCtrlA chip sdi => .spi16 (spiWord 1#1 chip 0b00110#5 sdi)
  | .wrCQCtrlB chip data => .spi16 (spiWord 0#1 chip 0b00111#5 data)
  | .rdCQCtrlB chip sdi => .spi16 (spiWord 1#1 chip 0b00111#5 sdi)
  | .wrCQErrA chip data => .spi16 (spiWord 0#1 chip 0b01000#5 data)
  | .rdCQErrA chip sdi => .spi16 (spiWord 1#1 chip 0b01000#5 sdi)
  | .wrCQErrB chip data => .spi16 (spiWord 0#1 chip 0b01001#5 data)
  | .rdCQErrB chip sdi => .spi16 (spiWord 1#1 chip 0b01001#5 sdi)
  | .wrMsgCtrlA chip data => .spi16 (spiWord 0#1 chip 0b01010#5 data)
  | .rdMsgCtrlA chip sdi => .spi16 (spiWord 1#1 chip 0b01010#5 sdi)
  | .wrMsgCtrlB chip data => .spi16 (spiWord 0#1 chip 0b01011#5 data)
  | .rdMsgCtrlB chip sdi => .spi16 (spiWord 1#1 chip 0b01011#5 sdi)
  | .wrChanStatA chip data => .spi16 (spiWord 0#1 chip 0b01100#5 data)
  | .rdChanStatA chip sdi => .spi16 (spiWord 1#1 chip 0b01100#5 sdi)
  | .wrChanStatB chip data => .spi16 (spiWord 0#1 chip 0b01101#5 data)
  | .rdChanStatB chip sdi => .spi16 (spiWord 1#1 chip 0b01101#5 sdi)
  | .wrLEDCtrl chip data => .spi16 (spiWord 0#1 chip 0b01110#5 data)
  | .rdLEDCtrl chip sdi => .spi16 (spiWord 1#1 chip 0b01110#5 sdi)
  | .wrTrigger chip data => .spi16 (spiWord 0#1 chip 0b01111#5 data)
  | .rdTrigger chip sdi => .spi16 (spiWord 1#1 chip 0b01111#5 sdi)
  | .wrCQCfgA chip data => .spi16 (spiWord 0#1 chip 0b10000#5 data)
  | .rdCQCfgA chip sdi => .spi16 (spiWord 1#1 chip 0b10000#5 sdi)
  | .wrCQCfgB chip data => .spi16 (spiWord 0#1 chip 0b10001#5 data)
  | .rdCQCfgB chip sdi => .spi16 (spiWord 1#1 chip 0b10001#5 sdi)
  | .wrCyclTmrA chip data => .spi16 (spiWord 0#1 chip 0b10010#5 data)
  | .rdCyclTmrA chip sdi => .spi16 (spiWord 1#1 chip 0b10010#5 sdi)
  | .wrCyclTmrB chip data => .spi16 (spiWord 0#1 chip 0b10011#5 data)
  | .rdCyclTmrB chip sdi => .spi16 (spiWord 1#1 chip 0b10011#5 sdi)
  | .wrDeviceDlyA chip data => .spi16 (spiWord 0#1 chip 0b10100#5 data)
  | .rdDeviceDlyA chip sdi => .spi16 (spiWord 1#1 chip 0b10100#5 sdi)
  | .wrDeviceDlyB chip data => .spi16 (spiWord 0#1 chip 0b10101#5 data)
  | .rdDeviceDlyB chip sdi => .spi16 (spiWord 1#1 chip 0b10101#5 sdi)
  | .wrTrigAssgnA chip data => .spi16 (spiWord 0#1 chip 0b10110#5 data)
  | .rdTrigAssgnA chip sdi => .spi16 (spiWord 1#1 chip 0b10110#5 sdi)
  | .wrTrigAssgnB chip data => .spi16 (spiWord 0#1 chip 0b10111#5 data)
  | .rdTrigAssgnB chip sdi => .spi16 (spiWord 1#1 chip 0b10111#5 sdi)
  | .wrLCnfgA chip data => .spi16 (spiWord 0#1 chip 0b11000#5 data)
  | .rdLCnfgA chip sdi => .spi16 (spiWord 1#1 chip 0b11000#5 sdi)
  | .wrLCnfgB chip data => .spi16 (spiWord 0#1 chip 0b11001#5 data)
  | .rdLCnfgB chip sdi => .spi16 (spiWord 1#1 chip 0b11001#5 sdi)
  | .wrIOStCfgA chip data => .spi16 (spiWord 0#1 chip 0b11010#5 data)
  | .rdIOStCfgA chip sdi => .spi16 (spiWord 1#1 chip 0b11010#5 sdi)
  | .wrIOStCfgB chip data => .spi16 (spiWord 0#1 chip 0b11011#5 data)
  | .rdIOStCfgB chip sdi => .spi16 (spiWord 1#1 chip 0b11011#5 sdi)
  | .wrDrvrCurrLim chip data => .spi16 (spiWord 0#1 chip 0b11100#5 data)
  | .rdDrvrCurrLim chip sdi => .spi16 (spiWord 1#1 chip 0b11100#5 sdi)
  | .wrClock chip data => .spi16 (spiWord 0#1 chip 0b11101#5 data)
  | .rdClock chip sdi => .spi16 (spiWord 1#1 chip 0b11101#5 sdi)
  | .wrStatus chip data => .spi16 (spiWord 0#1 chip 0b11110#5 data)
  | .rdStatus chip sdi => .spi16 (spiWord 1#1 chip 0b11110#5 sdi)
  | .wrRevID chip data => .spi16 (spiWord 0#1 chip 0b11111#5 data)
  | .rdRevID chip sdi => .spi16 (spiWord 1#1 chip 0b11111#5 sdi)
  | .setmode ch mode => .cmd3 (cmdWord ch mode)
  | .setmodeInactive ch => .cmd3 (cmdWord ch 0b00#2)
  | .setmodeWakeup ch => .cmd3 (cmdWord ch 0b01#2)
  | .setmodeOperate ch => .cmd3 (cmdWord ch 0b10#2)
  | .setmodeReserved ch => .cmd3 (cmdWord ch 0b11#2)

/-- The instruction under the row that names its register or its mode: a generic row's instruction becomes that row's, any
other stays as it is (R95, R96). -/
def canonical : Instr → Instr
  | .wr chip addr data => writeInstr (Reg.ofAddr addr) chip data
  | .rd chip addr sdi => readInstr (Reg.ofAddr addr) chip sdi
  | .setmode ch mode => modeInstr mode ch
  | i => i

end Sys2Proof
end

