-- ==== Sys2Proof/Config.lean ====
section
/-!
DEFINITION. What is fixed for one machine: the constants of 00_scope.md R4, the open parameters of R5 (`Params`, plain data
that `State` carries and no operation writes, so that a statement about every state is a statement about every value of
them), the open functions of R5 and the free values (R7 `any`), as constants without a body.
-/

namespace Sys2Proof

namespace Config

/-- `FIFO_DEPTH` (R5, R30): 64 bytes for each of the four FIFOs. -/
def fifoDepth : Nat := 64
/-- `MAX_MSG_LENGTH` (R4). -/
def maxMsgLength : Nat := 64
/-- `INIT_POWER_OFF_DELAY` in ms (R4). -/
def initPowerOffDelay : Nat := 1000
/-- `INIT_BOOTUP_DELAY` in ms (R4). -/
def initBootupDelay : Nat := 300
/-- `INIT_WURQ_TIMEOUT` in ms (R4). -/
def initWurqTimeout : Nat := 80
/-- `WU_MAX_PULSES` (R4). -/
def wuMaxPulses : Nat := 5

/-- `WU_WINDOW[k]`, the response window in ms after pulse k, 1 to 5 (R4); 0 for a count that is no pulse. -/
def wuWindow : Nat → Nat
  | 1 => 10
  | 2 => 10
  | 3 => 20
  | 4 => 20
  | 5 => 20
  | _ => 0

end Config

/-- The direction a checksum is judged for (R167): `CKS_OK(tx, ..)`, `CKS_OK(rx, ..)`. -/
inductive CksDir where
  | tx
  | rx
deriving DecidableEq, Repr

namespace Config

/-- `CKS_OK(dir, bytes)` (R5, R167): open, a total function of its arguments. -/
opaque cksOk : CksDir → List Byte → Bool

/-- The open function behind `CKS_INSERT` (R5, R167). -/
opaque cksInsertRaw : List Byte → List Byte

/-- `CKS_INSERT(bytes)` (R5, R167): open but for its length, which it keeps: any length-preserving function is this one for
some `cksInsertRaw`. -/
def cksInsert (bytes : List Byte) : List Byte :=
  if (cksInsertRaw bytes).length = bytes.length then cksInsertRaw bytes else bytes

/-- The n-th free byte of a run (R7 `any`; R94, R162). -/
opaque freeByte : Nat → Byte
/-- The n-th free mode of a run (`wu_reqmode` after a reset, R45). -/
opaque freeMode : Nat → Mode
/-- The n-th free rate code of a run (`com_speed` after a reset, R45). -/
opaque freeRate : Nat → BitVec 2
/-- The n-th free baud number of a run (`com_baud` after a reset, R45). -/
opaque freeBaud : Nat → Nat

end Config

/-- The stored bytes `x[a]` of the sixteen registers 0x0E to 0x1D (R40). -/
structure StorageRegs where
  ledCtrl : Byte
  trigger : Byte
  cqCfgA : Byte
  cqCfgB : Byte
  cyclTmrA : Byte
  cyclTmrB : Byte
  deviceDlyA : Byte
  deviceDlyB : Byte
  trigAssgnA : Byte
  trigAssgnB : Byte
  lCnfgA : Byte
  lCnfgB : Byte
  ioStCfgA : Byte
  ioStCfgB : Byte
  drvrCurrLim : Byte
  clock : Byte
deriving DecidableEq, Repr

/-- `RATE_BAUD[c]` for the four 2-bit codes c (R5). -/
structure RateTable where
  baud0 : Nat
  baud1 : Nat
  baud2 : Nat
  baud3 : Nat
deriving DecidableEq, Repr

/-- The parameters of R5 that are data: arguments of the model. -/
structure Params where
  /-- `CHIP_ADDR` -/
  chipAddr : ChipAddr
  /-- `REVID`, the byte read at 0x1F -/
  revId : Byte
  /-- `RESET_VALUE[a]` for a in 0x0E..0x1D -/
  resetValue : StorageRegs
  /-- `RATE_BAUD` -/
  rateBaud : RateTable
  /-- `INIT_CLOCK` -/
  initClock : Byte
  /-- `INIT_IRQ_EN` -/
  initIrqEn : Byte
  /-- `POLL_BUDGET_MS` -/
  pollBudgetMs : Nat
  /-- `POLL_INTERVAL_MS` less 1: the interval is at least 1 (R5) -/
  pollIntervalPred : Nat
deriving DecidableEq, Repr

/-- `POLL_INTERVAL_MS`, an integer at least 1 (R5). -/
def Params.pollIntervalMs (p : Params) : Nat := p.pollIntervalPred + 1

/-- The sixteen storage bytes at R5's default for `RESET_VALUE`, 0x00. -/
def StorageRegs.zero : StorageRegs :=
  { ledCtrl := 0, trigger := 0, cqCfgA := 0, cqCfgB := 0, cyclTmrA := 0, cyclTmrB := 0, deviceDlyA := 0, deviceDlyB := 0,
    trigAssgnA := 0, trigAssgnB := 0, lCnfgA := 0, lCnfgB := 0, ioStCfgA := 0, ioStCfgB := 0, drvrCurrLim := 0, clock := 0 }

/-- The parameters `State.reset` carries. R5 gives the defaults of `RESET_VALUE` and `POLL_INTERVAL_MS`; the other values
are a DESIGN CHOICE, unsafe (notes/assumptions/1.md): no statement rests on them. -/
def Params.default : Params :=
  { chipAddr := 0, revId := 0, resetValue := StorageRegs.zero,
    rateBaud := { baud0 := 0, baud1 := 0, baud2 := 0, baud3 := 0 },
    initClock := 0, initIrqEn := 0, pollBudgetMs := 0, pollIntervalPred := 0 }

end Sys2Proof
end

