-- ==== Sys2Proof/Machine/State.lean ====
section
/-!
DEFINITION. The state of the block, of the agents around it and of the model's own bookkeeping, as plain data
(10_state.md R10 to R45), the reasons a step can stop, and the state after power-on reset.
-/

namespace Sys2Proof.Machine

open Sys2Proof

/-! ## One channel -/

/-- The states of the wake-up sequencer (R130). -/
inductive WuState where
  | idle
  | pulsing
  | awaitingResponse
  | established
  | failed
deriving DecidableEq, Repr

/-- The transfer state of a framer (R32). -/
inductive Xfer where
  | xIdle
  | xAwait
deriving DecidableEq, Repr

/-- The state of one channel: its paired registers, FIFOs, framer and wake-up sequencer. -/
structure Channel where
  /-- `txfifo[X]`, oldest first (R30) -/
  txfifo : List Byte
  /-- `rxfifo[X]`, oldest first (R30) -/
  rxfifo : List Byte
  /-- `rxmsg[X]`: every byte received since the last CQSend or RxFifoRst (R32) -/
  rxmsg : List Byte
  /-- `xfer[X]` (R32) -/
  xfer : Xfer
  /-- `cqctrl[X]`, the stored part of CQCtrlX (R21) -/
  cqctrl : Byte
  /-- `cqerr[X]` (R23) -/
  cqerr : Byte
  /-- MsgCtrlX, `x[0x0A + o(X)]` (R25) -/
  msgCtrl : Byte
  /-- `framer_en[X]`, bit 6 of ChanStatX (R26) -/
  framerEn : Bool
  /-- `wu_state[X]` (R31) -/
  wuState : WuState
  /-- `wu_pulses[X]`, 0..5 (R31, R143) -/
  wuPulses : Nat
  /-- `wu_timer[X]`, 0..20 ms (R31, R144) -/
  wuTimer : Nat
  /-- `wu_restart[X]` (R31) -/
  wuRestart : Bool
  /-- `wu_reqmode[X]` (R31) -/
  wuReqMode : Mode
  /-- `mode[X]` (R31) -/
  mode : Mode
  /-- `com_valid[X]` (R31) -/
  comValid : Bool
  /-- `com_speed[X]` (R31) -/
  comSpeed : BitVec 2
  /-- `com_baud[X]` (R31) -/
  comBaud : Nat
deriving DecidableEq, Repr

/-- A channel's reset values (R45), the three R45 leaves unspecified as arguments. -/
def Channel.resetWith (reqMode : Mode) (speed : BitVec 2) (baud : Nat) : Channel :=
  { txfifo := [], rxfifo := [], rxmsg := [], xfer := .xIdle, cqctrl := 0x00, cqerr := 0x00, msgCtrl := 0x00,
    framerEn := false, wuState := .idle, wuPulses := 0, wuTimer := 0, wuRestart := false, wuReqMode := reqMode,
    mode := .inactive, comValid := false, comSpeed := speed, comBaud := baud }

/-! ## The SPI port -/

/-- `spi_phase` (R14): 0, 1, 2. -/
inductive SpiPhase where
  | idle
  | command
  | data
deriving DecidableEq, Repr

/-- The SPI port: the phase and the latched command byte (R14), the two bytes the block drove on SDO in the last
transaction (R33 (c), R94) and the completion status the SPI primitive reported for it (R110, R200). -/
structure SpiPort where
  phase : SpiPhase
  cmd : Byte
  sdoCmd : Byte
  sdoData : Byte
  exchangeOk : Bool
deriving DecidableEq, Repr

/-! ## Outputs, environment, start-up -/

/-- An event of the output trace `out` (R33). -/
inductive OutEvent where
  | wakePulse (x : Chan)
  | lineTx (x : Chan) (bytes : List Byte)
  | wakeUpTimeout (x : Chan)
  | established (x : Chan) (comSpeed : BitVec 2) (comBaud : Nat)
deriving DecidableEq, Repr

/-- The environment inputs (R34). -/
structure EnvInputs where
  /-- `status_in` -/
  statusIn : Byte
  /-- `chan_fault_in[A]` -/
  chanFaultA : BitVec 6
  /-- `chan_fault_in[B]` -/
  chanFaultB : BitVec 6
deriving DecidableEq, Repr

/-- How far the start-up sequence of R264 has come. -/
inductive BootPhase where
  /-- powered, start-up not begun -/
  | notStarted
  /-- sensor power held disabled (R264 (1)) -/
  | sensorOff
  /-- commanded operational, this many ms of `INIT_BOOTUP_DELAY` left (R264 (3)) -/
  | booting (leftMs : Nat)
  /-- step (3) has ended: transactions have their meaning -/
  | ready
deriving DecidableEq, Repr

/-! ## The host -/

/-- The completion status of a transaction (R110). A failed one was performed whole or not at all (R115): the
environment's choice, which the host does not see. -/
inductive SpiStatus where
  | ok
  | fail (performed : Bool)
deriving DecidableEq, Repr

/-- The eight transfer-fault flags of CQErr, bit 7 down to bit 0, and the members of `errorFlags` (R23). -/
inductive CqErrFlag where
  | transmission
  | cycle
  | txChecksum
  | txSize
  | rxChecksum
  | rxSize
  | frame
  | parity
deriving DecidableEq, Repr

/-- `TransferResult` (R210). -/
structure TransferResult where
  success : Bool
  errorFlags : List CqErrFlag
deriving DecidableEq, Repr

/-- What a host sequence returns (R230). -/
inductive HostResult where
  | ok
  /-- `Ok` with the byte `readRegister` read (R202) -/
  | byte (b : Byte)
  /-- `Ok` with the handle `getPort` returns, the channel letter (R206) -/
  | handle (x : Chan)
  /-- `Ok` with the bytes and the result of `sendIOLData` (R210) -/
  | transfer (inBytes : List Byte) (r : TransferResult)
  | busError
  | wakeUpTimeout (x : Chan)
  | transferTimeout (inBytes : List Byte) (r : TransferResult)
  | invalidChannel
  | invalidLength
  | notEstablished
deriving DecidableEq, Repr

/-- A call of a host sequence (43_host_sequences.md). -/
inductive HostCall where
  | writeRegister (address : Nat) (value : Byte)
  | readRegister (address : Nat)
  | setBits (address : Nat) (mask : Byte)
  | reset
  | initPorts
  | getPort (x : Chan)
  | setMode (x : Chan) (m : Mode)
  | sendIOLData (x : Chan) (outBytes : List Byte) (outLength expectedInLength : Nat)
deriving DecidableEq, Repr

/-- Where a host sequence runs: at chip level, under the caller that waits for it, or in the controller of one channel
(R211: one sequence at a time within one channel; any others interleave between their transactions). That a chip-level
sequence is bounded by its caller alone is DEDUCED (notes/assumptions/13.md). -/
inductive Slot where
  | chip (caller : Nat)
  | chan (x : Chan)
deriving DecidableEq, Repr

/-- What a running `sendIOLData` carries: the channel, `expectedInLength`, `inBytes` so far (oldest first), `elapsed`. -/
structure SendCtx where
  x : Chan
  expected : Nat
  got : List Byte
  elapsed : Nat
deriving DecidableEq, Repr

/-- Where a running host sequence stands: what it does next. -/
inductive Task where
  /-- `writeRegister` of each pair in order, then `Ok` (R201, R204) -/
  | writes (ws : List (RegAddr × Byte))
  /-- `readRegister` (R202) -/
  | read (a : RegAddr)
  /-- the read of `SETBITS` (R203); its write is `writes` -/
  | setBitsRead (a : RegAddr) (mask : Byte)
  /-- `initPorts`: disable sensor power (R205) -/
  | initPowerOff
  /-- `initPorts`: enable sensor power, command the chip operational (R205) -/
  | initPowerOn
  /-- `initPorts`: the bring-up writes left (R205) -/
  | initWrites (ws : List (RegAddr × Byte))
  /-- `setMode`: the mode request (R207) -/
  | modeRequest (x : Chan) (m : Mode)
  /-- `setMode`: wait while the sequence runs (R207) -/
  | modePoll (x : Chan)
  /-- `sendIOLData`: the read and the write of SETBITS(CQCtrlX, 0x0C) (R209) -/
  | sendClearRead (c : SendCtx) (load : List Byte)
  | sendClearWrite (c : SendCtx) (load : List Byte) (t : Byte)
  /-- `sendIOLData`: the message bytes still to write (R209) -/
  | sendLoad (c : SendCtx) (load : List Byte)
  /-- `sendIOLData`: the write of SETBITS(CQCtrlX, 0x01) (R209) -/
  | sendGoWrite (c : SendCtx) (t : Byte)
  /-- `sendIOLData`: read the level (R209) -/
  | sendLevel (c : SendCtx)
  /-- `sendIOLData`: n + 1 ready bytes still to read (R209) -/
  | sendPop (c : SendCtx) (n : Nat)
  /-- `sendIOLData`: read CQErrX (R209) -/
  | sendErr (c : SendCtx) (timedOut : Bool)
deriving DecidableEq, Repr

/-- A running host sequence: what it does next and the ticks of its `wait` that are left (R200). -/
structure Running where
  task : Task
  wait : Nat
deriving DecidableEq, Repr

/-- The host side (R35, R211), which no reset of the block touches. `CHIP_ADDR` is in `Params`. -/
structure HostSide where
  /-- `ports_init` -/
  portsInit : Bool
  /-- `spi_lock`, held for one `exchange` (R211) -/
  spiLock : Bool
  /-- the chip-level sequences that run, each with its caller, callers rising -/
  chipTasks : List (Nat × Running)
  chanATask : Option Running
  chanBTask : Option Running
  /-- what the host sequences have returned, oldest first -/
  returns : List (Slot × HostResult)
deriving DecidableEq, Repr

/-! ## Events -/

/-- The events (R8, R99): one entry of the total order of R70. -/
inductive Event where
  /-- an SPI transaction of that many clocks, `sdi` its first 16 bits (bit 15 first on the wire), with the status of R110 -/
  | spi (clocks : Nat) (sdi : BitVec 16) (st : SpiStatus)
  /-- a mode request on the command port (R96) -/
  | cmd3 (w : BitVec 3)
  /-- `Tick`: one millisecond passes (R139) -/
  | tick
  /-- `PULSE X` (R138) -/
  | pulse (x : Chan)
  /-- `LineWurq(X)` (R146) -/
  | lineWurq (x : Chan)
  /-- `LineRxChar(X, b, parity_ok, frame_ok)` (R176) -/
  | lineRxChar (x : Chan) (b : Byte) (parityOk frameOk : Bool)
  /-- `LineRxEnd(X)` (R177) -/
  | lineRxEnd (x : Chan)
  /-- `LineNoReply(X)` (R178) -/
  | lineNoReply (x : Chan)
  /-- `CycleErr(X)` (R179) -/
  | cycleErr (x : Chan)
  /-- `StatusEvent(s, fA, fB)` (R180) -/
  | statusEvent (st : Byte) (fA fB : BitVec 6)
  /-- power-on reset, or the discrete reset line (R260 (a)) -/
  | powerOnReset
  /-- a caller of the host's program calls a sequence -/
  | hostCall (caller : Nat) (c : HostCall)
  /-- the sequence in the slot performs its next action; `st` is the status of its transaction, if it issues one -/
  | hostStep (slot : Slot) (st : SpiStatus)
deriving DecidableEq, Repr

/-! ## The state -/

/-- The whole state. -/
structure State where
  /-- channel A -/
  chA : Channel
  /-- channel B -/
  chB : Channel
  /-- `irq_flags`, the Interrupt register (R17) -/
  irqFlags : Byte
  /-- InterruptEn, `x[0x03]` (R19) -/
  interruptEn : Byte
  /-- `x[0x0E]` to `x[0x1D]` (R40) -/
  storage : StorageRegs
  /-- the SPI port (R14, R94) -/
  spi : SpiPort
  /-- the output trace `out`, oldest first (R33) -/
  out : List OutEvent
  /-- the environment inputs (R34) -/
  env : EnvInputs
  /-- the start-up sequence of R264 -/
  boot : BootPhase
  /-- the host side (R35) -/
  host : HostSide
  /-- the parameters of R5; no operation writes them -/
  params : Params
  /-- the model's own: how many free values the run has drawn -/
  draws : Nat
  /-- the model's own: the events to come, in the total order of R70 -/
  agenda : List Event
deriving DecidableEq, Repr

/-- Reasons the run stops because the agenda asks for an event that is not enabled there: no event of the block or of the
host. All are safe: the model goes on nowhere the spec does not. -/
inductive Fault where
  /-- raised by `PULSE X` when channel X is not in Pulsing (R138: enabled exactly there); safe -/
  | pulseNotEnabled (x : Chan)
  /-- raised by a host step of a slot in which no sequence runs; safe -/
  | hostIdle (slot : Slot)
  /-- raised by a host step of a slot whose sequence still waits for ticks (R200); safe -/
  | hostWaiting (slot : Slot)
  /-- raised by a host call into a slot whose sequence has not returned (R211: one at a time within a
  channel; a chip-level caller waits for its own call); safe -/
  | hostBusy (slot : Slot)
  /-- raised by a transaction while `spi_lock` is held (R211); safe, and reached from no state with the lock free -/
  | spiLockHeld
deriving DecidableEq, Repr

/-- The situations to which the spec gives no meaning (its word is `refuse`, R7). All are safe. -/
inductive Refusal where
  /-- raised by an arm of `exec` whose instruction has no meaning yet (none is left); safe -/
  | notModelled (mnemonic : String)
  /-- raised by a mode request with mode 0b11 (R97 (f)); safe -/
  | reservedMode
  /-- raised by CQSend with the framer enabled while a reply is awaited (R166); safe -/
  | secondTransfer
  /-- raised by a transaction of more than 16 clocks (R97 (c)); safe -/
  | longTransaction
  /-- raised by a transaction before the boot wait has ended (R264); safe -/
  | beforeBootup
  /-- raised by `writeRegister` or `readRegister` of an address above MAX_REG (R201, 93 U7); safe -/
  | addressAboveMax
deriving DecidableEq, Repr

/-- The state after power-on reset (R45, R261): the output trace empty, both sequencers Idle, start-up not begun. The
values R45 leaves unspecified (`spi_cmd`, `wu_reqmode`, `com_speed`, `com_baud`), the environment inputs (R34: `any`), the
SDO bytes and `params` are the model's: DESIGN CHOICE, unsafe (notes/assumptions/1.md, 2.md). -/
def State.reset : State :=
  { chA := Channel.resetWith .inactive 0 0,
    chB := Channel.resetWith .inactive 0 0,
    irqFlags := 0x00,
    interruptEn := 0x00,
    storage := Params.default.resetValue,
    spi := { phase := .idle, cmd := 0, sdoCmd := 0, sdoData := 0, exchangeOk := true },
    out := [],
    env := { statusIn := 0, chanFaultA := 0, chanFaultB := 0 },
    boot := .notStarted,
    host := { portsInit := false, spiLock := false, chipTasks := [], chanATask := none, chanBTask := none, returns := [] },
    params := Params.default,
    draws := 0,
    agenda := [] }

end Sys2Proof.Machine
end

