-- ==== Sys2Proof/Machine/Operands.lean ====
section
/-!
DEFINITION. The operands of the block's operations: a channel's record, the stored byte behind a storage register, and the
fields of the registers whose bits have a meaning (10_state.md R21, R25, R26).
-/

namespace Sys2Proof.Machine

open Sys2Proof

/-! ## The channel of an operation -/

/-- The record of channel X. -/
def State.chan (s : State) : Chan → Channel
  | .a => s.chA
  | .b => s.chB

/-- Replace the record of channel X. -/
def State.setChan (s : State) (x : Chan) (c : Channel) : State :=
  match x with
  | .a => { s with chA := c }
  | .b => { s with chB := c }

/-- `chan_fault_in[X]` (R34). -/
def EnvInputs.chanFault (e : EnvInputs) : Chan → BitVec 6
  | .a => e.chanFaultA
  | .b => e.chanFaultB

/-! ## The storage registers (R40) -/

/-- `x[a]` of a storage register. -/
def storageGet (m : StorageRegs) : StoreReg → Byte
  | .ledCtrl => m.ledCtrl
  | .trigger => m.trigger
  | .cqCfgA => m.cqCfgA
  | .cqCfgB => m.cqCfgB
  | .cyclTmrA => m.cyclTmrA
  | .cyclTmrB => m.cyclTmrB
  | .deviceDlyA => m.deviceDlyA
  | .deviceDlyB => m.deviceDlyB
  | .trigAssgnA => m.trigAssgnA
  | .trigAssgnB => m.trigAssgnB
  | .lCnfgA => m.lCnfgA
  | .lCnfgB => m.lCnfgB
  | .ioStCfgA => m.ioStCfgA
  | .ioStCfgB => m.ioStCfgB
  | .drvrCurrLim => m.drvrCurrLim
  | .clock => m.clock

/-- `x[a] <- v` of a storage register. -/
def storageSet (m : StorageRegs) (r : StoreReg) (v : Byte) : StorageRegs :=
  match r with
  | .ledCtrl => { m with ledCtrl := v }
  | .trigger => { m with trigger := v }
  | .cqCfgA => { m with cqCfgA := v }
  | .cqCfgB => { m with cqCfgB := v }
  | .cyclTmrA => { m with cyclTmrA := v }
  | .cyclTmrB => { m with cyclTmrB := v }
  | .deviceDlyA => { m with deviceDlyA := v }
  | .deviceDlyB => { m with deviceDlyB := v }
  | .trigAssgnA => { m with trigAssgnA := v }
  | .trigAssgnB => { m with trigAssgnB := v }
  | .lCnfgA => { m with lCnfgA := v }
  | .lCnfgB => { m with lCnfgB := v }
  | .ioStCfgA => { m with ioStCfgA := v }
  | .ioStCfgB => { m with ioStCfgB := v }
  | .drvrCurrLim => { m with drvrCurrLim := v }
  | .clock => { m with clock := v }

/-! ## Fields -/

/-- `CQCTRL_STORE`, the mask of CQCtrl's stored bits (R21). -/
def cqCtrlStore : Byte := 0xE2

/-- ComRt, bits 7:6 of CQCtrl (R21). -/
def comRt (v : Byte) : BitVec 2 := v.extractLsb' 6 2
/-- WuPuls, bit 4 of CQCtrl (R21). -/
def wuPuls (v : Byte) : Bool := v.getLsbD 4
/-- TxFifoRst, bit 3 of CQCtrl (R21). -/
def txFifoRst (v : Byte) : Bool := v.getLsbD 3
/-- RxFifoRst, bit 2 of CQCtrl (R21). -/
def rxFifoRst (v : Byte) : Bool := v.getLsbD 2
/-- CQSend, bit 0 of CQCtrl (R21). -/
def cqSendBit (v : Byte) : Bool := v.getLsbD 0

/-- TxErDestroy, bit 7 of MsgCtrl (R25, R169). -/
def txErDestroy (v : Byte) : Bool := v.getLsbD 7
/-- SPIChks, bit 6 of MsgCtrl (R25, R167). -/
def spiChks (v : Byte) : Bool := v.getLsbD 6
/-- InsChks, bit 5 of MsgCtrl (R25, R167). -/
def insChks (v : Byte) : Bool := v.getLsbD 5
/-- TxKeepMsg, bit 3 of MsgCtrl (R25, R168). -/
def txKeepMsg (v : Byte) : Bool := v.getLsbD 3
/-- RChksEn, bit 2 of MsgCtrl (R25, R167). -/
def rChksEn (v : Byte) : Bool := v.getLsbD 2

/-- Rst, bit 7 of ChanStat (R26). -/
def rstBit (v : Byte) : Bool := v.getLsbD 7
/-- FramerEn, bit 6 of ChanStat (R26). -/
def framerEnBit (v : Byte) : Bool := v.getLsbD 6

/-- What a read of ChanStatX returns: `(framer_en << 6) | chan_fault_in`, bit 7 = 0 (R26). -/
def chanStatByte (framerEn : Bool) (fault : BitVec 6) : Byte :=
  0#1 ++ BitVec.ofBool framerEn ++ fault

/-- `RATE_BAUD[c]` (R5, R147). -/
def rateBaudOf (t : RateTable) (c : BitVec 2) : Nat :=
  match c.toNat with
  | 0 => t.baud0
  | 1 => t.baud1
  | 2 => t.baud2
  | _ => t.baud3

end Sys2Proof.Machine
end

