-- ==== Sys2Proof/Machine/Flags.lean ====
section
/-!
DEFINITION. The flags: the eight of Interrupt (10_state.md R17), the eight of CQErr (R23), the interrupt output (R19), and
the decoding of CQErr into the source's names and classes (60_exceptions.md R230, R232).
-/

namespace Sys2Proof.Machine

open Sys2Proof

/-! ## Interrupt (R17) -/

/-- StatusInt, bit 7. -/
def statusIntMask : Byte := 0x80
/-- WURQInt, bit 6. -/
def wurqIntMask : Byte := 0x40
/-- TxErrorX: bit 4 for A, bit 5 for B. -/
def txErrorMask : Chan → Byte
  | .a => 0x10
  | .b => 0x20
/-- RxErrorX: bit 2 for A, bit 3 for B. -/
def rxErrorMask : Chan → Byte
  | .a => 0x04
  | .b => 0x08
/-- RxDataRdyX: bit 0 for A, bit 1 for B. -/
def rxDataRdyMask : Chan → Byte
  | .a => 0x01
  | .b => 0x02

/-- `irq_flags[6]`, WURQInt (R17). -/
def State.wurqInt (s : State) : Bool := s.irqFlags.getLsbD 6

/-- The level of the interrupt output: `IRQ_n = 0` exactly when `(irq_flags & InterruptEn) != 0` (R19, R234). -/
def State.irqN (s : State) : Bool := s.irqFlags &&& s.interruptEn == 0x00

/-! ## CQErr (R23) -/

/-- The bit of a fault flag in CQErr (R23). -/
def CqErrFlag.mask : CqErrFlag → Byte
  | .transmission => 0x80
  | .cycle => 0x40
  | .txChecksum => 0x20
  | .txSize => 0x10
  | .rxChecksum => 0x08
  | .rxSize => 0x04
  | .frame => 0x02
  | .parity => 0x01

/-- The transmit side: bits 7 to 4 (R23, R170). -/
def CqErrFlag.isTx : CqErrFlag → Bool
  | .transmission => true
  | .cycle => true
  | .txChecksum => true
  | .txSize => true
  | .rxChecksum => false
  | .rxSize => false
  | .frame => false
  | .parity => false

/-- The Interrupt flag a fault of channel X sets: TxErrorX for bits 7..4, RxErrorX for bits 3..0 (R170). -/
def CqErrFlag.irqMask (x : Chan) (k : CqErrFlag) : Byte :=
  if k.isTx then txErrorMask x else rxErrorMask x

/-- All fault flags, bit 7 first. -/
def CqErrFlag.all : List CqErrFlag :=
  [.transmission, .cycle, .txChecksum, .txSize, .rxChecksum, .rxSize, .frame, .parity]

/-- `errorFlags` of a CQErr byte: `{ name(k) | e[k] = 1 }` (R210). -/
def errorFlagsOf (e : Byte) : List CqErrFlag :=
  CqErrFlag.all.filter fun k => e &&& k.mask != 0

/-- `TransferResult` of a transfer that read `got` of `expected` bytes and the CQErr byte `e` (R210). -/
def transferResult (e : Byte) (got expected : Nat) : TransferResult :=
  { success := e == 0x00 && got == expected, errorFlags := errorFlagsOf e }

/-- The fault classes of the source (R230, R232). -/
inductive FaultClass where
  | checksumFault
  | parityFault
  | frameFault
  | sizeFault
deriving DecidableEq, Repr

/-- The code of a fault class (R230). -/
def FaultClass.code : FaultClass → Nat
  | .checksumFault => 4
  | .parityFault => 5
  | .frameFault => 6
  | .sizeFault => 7

/-- The class of a fault flag; transmission and cycle have none (R232). -/
def CqErrFlag.class? : CqErrFlag → Option FaultClass
  | .transmission => none
  | .cycle => none
  | .txChecksum => some .checksumFault
  | .txSize => some .sizeFault
  | .rxChecksum => some .checksumFault
  | .rxSize => some .sizeFault
  | .frame => some .frameFault
  | .parity => some .parityFault

/-- The code of an outcome (R230); every form of `Ok` is 0. -/
def HostResult.code : HostResult → Nat
  | .ok => 0
  | .byte _ => 0
  | .handle _ => 0
  | .transfer _ _ => 0
  | .busError => 1
  | .wakeUpTimeout _ => 2
  | .transferTimeout _ _ => 3
  | .invalidChannel => 8
  | .invalidLength => 9
  | .notEstablished => 10

end Sys2Proof.Machine
end

