-- ==== Sys2Proof/Machine/Ops.lean ====
section
/-!
DEFINITION. The named operations every unit shares: outcomes in sequence, the output trace, latching a fault (which stands
in the place of taking an exception, 60_exceptions.md R240), the flags that are read, the resets (70_reset_and_hazards.md
R260 to R263), and one SPI transaction around a register access (40_spi_transactions.md R110, R116).
-/

namespace Sys2Proof.Machine

open Sys2Proof

/-- The outcome of a step of this machine. -/
abbrev Outcome := Host.Outcome State Fault Refusal

/-- Go on from a next state; a fault or a refusal stays what it is. -/
def onNext (o : Outcome) (f : State → Outcome) : Outcome :=
  match o with
  | .next s => f s
  | .fault r => .fault r
  | .refused r => .refused r

/-! ## Outputs and flags -/

/-- `emit E`: append E to `out` (R7, R33). -/
def emit (e : OutEvent) (s : State) : State := { s with out := s.out ++ [e] }

/-- Set the Interrupt flags of a mask: events are latched, not counted (R18). -/
def setIrq (mask : Byte) (s : State) : State := { s with irqFlags := s.irqFlags ||| mask }

/-- `irq_flags[6] <- 0`: this bit only (R139). -/
def clearWurq (s : State) : State := { s with irqFlags := s.irqFlags &&& ~~~wurqIntMask }

/-- `Fault(X, k)` (R170): latch flag k of `cqerr[X]` and the channel's TxError or RxError flag. This is all a fault does:
it saves no state, switches no mode and transfers no control (R240). -/
def latchFault (x : Chan) (k : CqErrFlag) (s : State) : State :=
  setIrq (k.irqMask x) (s.setChan x { s.chan x with cqerr := (s.chan x).cqerr ||| k.mask })

/-- A host read of Interrupt: return `irq_flags` and clear all eight (R18). -/
def readInterrupt (s : State) : Byte × State := (s.irqFlags, { s with irqFlags := 0x00 })

/-- A host read of CQErrX: return `cqerr[X]` and clear all eight (R24). With `readInterrupt` it is how a latched fault is
discharged, in the place of a return from exception (R242). -/
def readCqErr (x : Chan) (s : State) : Byte × State :=
  ((s.chan x).cqerr, s.setChan x { s.chan x with cqerr := 0x00 })

/-! ## Storage -/

/-- A write of MsgCtrlX: `x[a] <- v` (R25). -/
def setMsgCtrl (x : Chan) (v : Byte) (s : State) : State := s.setChan x { s.chan x with msgCtrl := v }

/-- A write of a storage register without effect (R40). -/
def storeReg (r : StoreReg) (v : Byte) (s : State) : State := { s with storage := storageSet s.storage r v }

/-! ## Reset -/

/-- `BlockReset()` (R262): every variable of R45 but `out` to its reset value; the four R45 leaves unspecified become free
values. -/
def blockReset (s : State) : State :=
  { s with
    chA := Channel.resetWith (Config.freeMode s.draws) (Config.freeRate s.draws) (Config.freeBaud s.draws),
    chB := Channel.resetWith (Config.freeMode (s.draws + 1)) (Config.freeRate (s.draws + 1)) (Config.freeBaud (s.draws + 1)),
    irqFlags := 0x00,
    interruptEn := 0x00,
    storage := s.params.resetValue,
    spi := { s.spi with phase := .idle, cmd := Config.freeByte s.draws },
    draws := s.draws + 2 }

/-- Power-on reset or the discrete reset line (R260 (a), R261): the register reset, and the trace starts empty; the start-up
sequence of R264 is before the host again. -/
def powerOnReset (s : State) : State := { blockReset s with out := [], boot := .notStarted }

/-- A write of ChanStatX: Rst = 1 resets the block and discards the rest, else FramerEn is stored (R26). -/
def writeChanStat (x : Chan) (v : Byte) (s : State) : State :=
  if rstBit v then blockReset s else s.setChan x { s.chan x with framerEn := framerEnBit v }

/-! ## One transaction -/

/-- The port's side of a transaction: `cmd` is what `spi_cmd` holds after it (R14) and SDO carries free values in both phases (R94)
until a read puts its value in the second. The phase is 0 again when it ends. -/
def spiShift (cmd : Byte) (s : State) : State :=
  { s with
    spi := { s.spi with phase := .idle, cmd := cmd, sdoCmd := Config.freeByte s.draws,
                        sdoData := Config.freeByte (s.draws + 1) },
    draws := s.draws + 2 }

/-- A write transaction (R110): with another chip's address it changes no state of the block (R116). -/
def spiWrite (chip : ChipAddr) (addr : RegAddr) (act : State → Outcome) (s : State) : Outcome :=
  if chip = s.params.chipAddr then act (spiShift (commandByte 0#1 chip addr) s)
  else .next (spiShift s.spi.cmd s)

/-- A read transaction (R110): SDO carries the value read in phase 2 (R94); with another chip's address it changes no
state of the block (R116). -/
def spiRead (chip : ChipAddr) (addr : RegAddr) (act : State → Byte × State) (s : State) : Outcome :=
  if chip = s.params.chipAddr then
    let r := act (spiShift (commandByte 1#1 chip addr) s)
    .next { r.2 with spi := { r.2.spi with sdoData := r.1 } }
  else .next (spiShift s.spi.cmd s)

end Sys2Proof.Machine
end

