-- ==== Sys2Proof/Machine/Sequencer.lean ====
section
/-!
DEFINITION. Unit U2, the wake-up sequencer of each channel (41_wakeup_sequencer.md): the mode request, the pulse, the tick,
detection, expiry and the replay of a queued request.
-/

namespace Sys2Proof.Machine

open Sys2Proof

/-! ## The mode request, on the channel's own record (R151: nothing of the other channel) -/

/-- `GoIdle(X)` (R137). -/
def Channel.goIdle (c : Channel) : Channel :=
  { c with wuState := .idle, wuPulses := 0, wuTimer := 0, wuRestart := false, mode := .inactive, framerEn := false }

/-- `SetModeIdle(X, m)` (R133). -/
def Channel.setModeIdle (m : Mode) (c : Channel) : Channel :=
  if m = .inactive then { c with mode := m }
  else { c with mode := m, wuPulses := 0, wuTimer := 0, framerEn := true, wuState := .pulsing }

/-- `SetModeEstablished(X, m)` (R134). -/
def Channel.setModeEstablished (m : Mode) (c : Channel) : Channel :=
  if m = .inactive then c.goIdle else { c with mode := m }

/-- `SetModeQueued(X, m)` (R135). -/
def Channel.setModeQueued (m : Mode) (c : Channel) : Channel :=
  { c with wuRestart := true, wuReqMode := m }

/-- `SetModeFailed(X, m)` (R136). -/
def Channel.setModeFailed (m : Mode) (c : Channel) : Channel :=
  let c1 := { c with wuState := .idle, wuPulses := 0, wuTimer := 0 }
  if m = .inactive then c1.goIdle else c1.setModeIdle m

/-- `SETMODE(X, m)`: the dispatch on the state of the channel (R132). -/
def Channel.modeRequest (m : Mode) (c : Channel) : Channel :=
  match c.wuState with
  | .idle => c.setModeIdle m
  | .established => c.setModeEstablished m
  | .pulsing => c.setModeQueued m
  | .awaitingResponse => c.setModeQueued m
  | .failed => c.setModeFailed m

/-- `SETMODE X, m` (R132). -/
def modeRequest (x : Chan) (m : Mode) (s : State) : State := s.setChan x ((s.chan x).modeRequest m)

/-! ## The sequence -/

/-- `WakePulse(X)` (R145): the effect of WuPuls = 1, by the sequencer or the host. -/
def wakePulse (x : Chan) (s : State) : State := emit (.wakePulse x) s

/-- The sequencer's part of `PULSE` (R138). -/
def Channel.pulse (c : Channel) : Channel :=
  { c with wuPulses := c.wuPulses + 1, wuTimer := Config.wuWindow (c.wuPulses + 1), wuState := .awaitingResponse }

/-- `PULSE X` (R138), enabled exactly in Pulsing. -/
def pulseStep (x : Chan) (s : State) : Outcome :=
  if (s.chan x).wuState = .pulsing then
    .next ((wakePulse x s).setChan x (s.chan x).pulse)
  else .fault (.pulseNotEnabled x)

/-- `Replay(X)` (R142): the queued request, if any, in the state just reached. -/
def Channel.replay (c : Channel) : Channel :=
  if c.wuRestart then Channel.modeRequest c.wuReqMode { c with wuRestart := false } else c

/-- What `Detect(X)` records (R140, R147). -/
def Channel.detected (rates : RateTable) (c : Channel) : Channel :=
  { c with comSpeed := comRt c.cqctrl, comBaud := rateBaudOf rates (comRt c.cqctrl), comValid := true, wuTimer := 0,
           wuState := .established }

/-- `Detect(X)` (R140). -/
def detect (x : Chan) (s : State) : State :=
  let c := (s.chan x).detected s.params.rateBaud
  (emit (.established x c.comSpeed c.comBaud) s).setChan x c.replay

/-- `Expire(X)` (R141): retry while pulses are left, else Failed. -/
def expire (x : Chan) (s : State) : State :=
  let c := s.chan x
  if c.wuPulses < Config.wuMaxPulses then s.setChan x { c with wuState := .pulsing }
  else (emit (.wakeUpTimeout x) s).setChan x (Channel.replay { c with wuState := .failed })

/-- One millisecond of channel X's sequencer (R139, R149): the timer is decremented, then the flag is sampled, and
detection wins over expiry (R236 (a)). -/
def tickChan (x : Chan) (s : State) : State :=
  let c := s.chan x
  if c.wuState = .awaitingResponse then
    let s1 := s.setChan x { c with wuTimer := c.wuTimer - 1 }
    if s1.wurqInt then detect x (clearWurq s1)
    else if c.wuTimer - 1 = 0 then expire x s1
    else s1
  else s

/-- The sequencers' part of `Tick`: channel A, then channel B (R139, R236 (b)). -/
def tickSequencers (s : State) : State := tickChan .b (tickChan .a s)

/-- `LineWurq(X)` (R146): one flag for both channels. -/
def lineWurq (_x : Chan) (s : State) : State := setIrq wurqIntMask s

/-- The channel whose `PULSE` comes before any `Tick` (R148): one in Pulsing, A first if both are. -/
def urgentPulse (s : State) : Option Chan :=
  if s.chA.wuState = .pulsing then some .a
  else if s.chB.wuState = .pulsing then some .b
  else none

end Sys2Proof.Machine
end

