-- ==== Sys2Proof/Machine/ModeRequest.lean ====
section
/-!
DEFINITION. The mode-request family: the meaning of `SETMODE` and of each of its rows (41_wakeup_sequencer.md R132;
30_encoding.md R96, R97 (f)).
-/

namespace Sys2Proof.Machine

open Sys2Proof

/-- `SETMODE X, m` by mode code (R96, R132); the code 0b11 is reserved (R97 (f)). -/
def execSetmode (ch : Chan) (mode : BitVec 2) (s : State) : Outcome :=
  match mode.toNat with
  | 0 => .next (modeRequest ch .inactive s)
  | 1 => .next (modeRequest ch .wakeup s)
  | 2 => .next (modeRequest ch .operate s)
  | _ => .refused .reservedMode

/-- `SETMODE X, INACTIVE` (R132). -/
def execSetmodeInactive (ch : Chan) (s : State) : Outcome := .next (modeRequest ch .inactive s)

/-- `SETMODE X, WAKEUP` (R132). -/
def execSetmodeWakeup (ch : Chan) (s : State) : Outcome := .next (modeRequest ch .wakeup s)

/-- `SETMODE X, OPERATE` (R132). -/
def execSetmodeOperate (ch : Chan) (s : State) : Outcome := .next (modeRequest ch .operate s)

/-- The reserved mode code 0b11: the spec gives it no meaning (R97 (f), U8). -/
def execSetmodeReserved (_ch : Chan) (_s : State) : Outcome := .refused .reservedMode

end Sys2Proof.Machine
end

