-- ==== Sys2Proof/Machine/Framer.lean ====
section
/-!
DEFINITION. Unit U3, the message framer of each channel (42_message_framer.md): FIFO access, the FIFO resets, the send
trigger, and the line events of the framer.
-/

namespace Sys2Proof.Machine

open Sys2Proof

/-- A push onto a FIFO with room (R161, R176, R182). -/
def fifoPush (fifo : List Byte) (v : Byte) : List Byte := fifo ++ [v]

/-- A FIFO has room: its length is below `FIFO_DEPTH` (R30). -/
def fifoHasRoom (fifo : List Byte) : Bool := decide (fifo.length < Config.fifoDepth)

/-! ## FIFO access -/

/-- `TxPush(X, v)` (R161). -/
def txPush (x : Chan) (v : Byte) (s : State) : State :=
  if fifoHasRoom (s.chan x).txfifo then
    s.setChan x { s.chan x with txfifo := fifoPush (s.chan x).txfifo v }
  else latchFault x .txSize s

/-- `RxPop(X)` (R162); on an empty FIFO the value is free and nothing of the block changes. -/
def rxPop (x : Chan) (s : State) : Byte × State :=
  match (s.chan x).rxfifo with
  | [] => (Config.freeByte s.draws, { s with draws := s.draws + 1 })
  | b :: rest => (b, s.setChan x { s.chan x with rxfifo := rest })

/-- The level register: `zext_8(len(rxfifo[X]))` (R20, R163). -/
def rxLevel (x : Chan) (s : State) : Byte := BitVec.ofNat 8 (s.chan x).rxfifo.length

/-- `TxFifoReset(X)` (R164). -/
def txFifoReset (x : Chan) (s : State) : State := s.setChan x { s.chan x with txfifo := [] }

/-- `RxFifoReset(X)` (R165): also gives up a reply still awaited. -/
def rxFifoReset (x : Chan) (s : State) : State :=
  s.setChan x { s.chan x with rxfifo := [], rxmsg := [], xfer := .xIdle }

/-! ## Sending -/

/-- The transmit check: SPIChks off, or `CKS_OK(tx, loaded)` (R166, R167). -/
def txCheckOk (opts : Byte) (loaded : List Byte) : Bool := !spiChks opts || Config.cksOk .tx loaded

/-- The message sent: `CKS_INSERT(loaded)` under InsChks, else `loaded` (R166, R167). -/
def txMessage (opts : Byte) (loaded : List Byte) : List Byte :=
  if insChks opts then Config.cksInsert loaded else loaded

/-- The body of `CqSend(X)` for a message that is there: check, destroy or send (R166 to R169). -/
def sendLoaded (x : Chan) (s : State) : State :=
  let c := s.chan x
  let txok := txCheckOk c.msgCtrl c.txfifo
  let s1 := if txok then s else latchFault x .txChecksum s
  if !txok && txErDestroy c.msgCtrl then s1.setChan x { s1.chan x with txfifo := [] }
  else
    let s2 := emit (.lineTx x (txMessage c.msgCtrl c.txfifo)) s1
    s2.setChan x { s2.chan x with
      rxmsg := [], xfer := .xAwait, txfifo := if txKeepMsg c.msgCtrl then c.txfifo else [] }

/-- `CqSend(X)` (R166): ignored with the framer disabled; a second transfer in flight has no meaning. -/
def cqSend (x : Chan) (s : State) : Outcome :=
  if (s.chan x).framerEn = false then .next s
  else if (s.chan x).xfer = .xAwait then .refused .secondTransfer
  else if (s.chan x).txfifo = [] then .next (latchFault x .txSize s)
  else .next (sendLoaded x s)

/-! ## Line events -/

/-- `LineRxChar(X, b, parity_ok, frame_ok)` (R176). -/
def lineRxChar (x : Chan) (b : Byte) (parityOk frameOk : Bool) (s : State) : State :=
  if (s.chan x).framerEn = false then s
  else
    let s1 := s.setChan x { s.chan x with rxmsg := (s.chan x).rxmsg ++ [b] }
    let s2 := if parityOk then s1 else latchFault x .parity s1
    let s3 := if frameOk then s2 else latchFault x .frame s2
    if fifoHasRoom (s3.chan x).rxfifo then
      s3.setChan x { s3.chan x with rxfifo := fifoPush (s3.chan x).rxfifo b }
    else latchFault x .rxSize s3

/-- `LineRxEnd(X)` (R177). -/
def lineRxEnd (x : Chan) (s : State) : State :=
  let c := s.chan x
  if c.framerEn = true ∧ c.xfer = .xAwait then
    let s1 := if rChksEn c.msgCtrl && !Config.cksOk .rx c.rxmsg then latchFault x .rxChecksum s else s
    let s2 := setIrq (rxDataRdyMask x) s1
    s2.setChan x { s2.chan x with xfer := .xIdle }
  else s

/-- `LineNoReply(X)` (R178). -/
def lineNoReply (x : Chan) (s : State) : State :=
  let c := s.chan x
  if c.framerEn = true ∧ c.xfer = .xAwait then
    let s1 := latchFault x .transmission s
    s1.setChan x { s1.chan x with xfer := .xIdle }
  else s

/-- `CycleErr(X)` (R179). -/
def cycleErr (x : Chan) (s : State) : State := latchFault x .cycle s

/-- `StatusEvent(s, fA, fB)` (R180). -/
def statusEvent (st : Byte) (fA fB : BitVec 6) (s : State) : State :=
  setIrq statusIntMask { s with env := { statusIn := st, chanFaultA := fA, chanFaultB := fB } }

end Sys2Proof.Machine
end

