-- ==== Sys2Proof/Machine/Registers.lean ====
section
/-!
DEFINITION. Unit U1, the register interface: the write of CQCtrl with its triggers (10_state.md R22) and the dispatch of a
register write and a register read over the 32 addresses (40_spi_transactions.md R111, R112).
-/

namespace Sys2Proof.Machine

open Sys2Proof

/-- The part of a CQCtrlX write before CQSend (R111): store `v & 0xE2`, then RxFifoRst, TxFifoRst, WuPuls. -/
def cqCtrlTriggers (x : Chan) (v : Byte) (s : State) : State :=
  let s1 := s.setChan x { s.chan x with cqctrl := v &&& cqCtrlStore }
  let s2 := if rxFifoRst v then rxFifoReset x s1 else s1
  let s3 := if txFifoRst v then txFifoReset x s2 else s2
  if wuPuls v then wakePulse x s3 else s3

/-- A write of CQCtrlX (R22, R111): the stored bits, then the triggers in the order RxFifoRst, TxFifoRst, WuPuls, CQSend. -/
def writeCqCtrl (x : Chan) (v : Byte) (s : State) : Outcome :=
  if cqSendBit v then cqSend x (cqCtrlTriggers x v s) else .next (cqCtrlTriggers x v s)

/-- A register write, by register (R111). -/
def regWrite (r : Reg) (v : Byte) (s : State) : Outcome :=
  match r with
  | .txRxData x => .next (txPush x v s)
  | .interrupt => .next s
  | .interruptEn => .next { s with interruptEn := v }
  | .rxFifoLvl _ => .next s
  | .cqCtrl x => writeCqCtrl x v s
  | .cqErr _ => .next s
  | .msgCtrl x => .next (setMsgCtrl x v s)
  | .chanStat x => .next (writeChanStat x v s)
  | .store r => .next (storeReg r v s)
  | .status => .next s
  | .revId => .next s

/-- A register read, by register (R112). -/
def regRead (r : Reg) (s : State) : Byte × State :=
  match r with
  | .txRxData x => rxPop x s
  | .interrupt => readInterrupt s
  | .interruptEn => (s.interruptEn, s)
  | .rxFifoLvl x => (rxLevel x s, s)
  | .cqCtrl x => ((s.chan x).cqctrl, s)
  | .cqErr x => readCqErr x s
  | .msgCtrl x => ((s.chan x).msgCtrl, s)
  | .chanStat x => (chanStatByte (s.chan x).framerEn (s.env.chanFault x), s)
  | .store r => (storageGet s.storage r, s)
  | .status => (s.env.statusIn, s)
  | .revId => (s.params.revId, s)

/-- `MemWrite(a, 1, v)` (R111). -/
def memWrite (a : RegAddr) (v : Byte) (s : State) : Outcome := regWrite (Reg.ofAddr a) v s

/-- `MemRead(a, 1)` (R112). -/
def memRead (a : RegAddr) (s : State) : Byte × State := regRead (Reg.ofAddr a) s

end Sys2Proof.Machine
end

