-- ==== Sys2Proof/Machine/SpiRead.lean ====
section
/-!
DEFINITION. The register-read family: the meaning of `RD` and of each of the 32 rows `RD_<register>` of the opcode table
(40_spi_transactions.md R114; 30_encoding.md R95). Each row states its own effect; `RD` is the dispatch of R112. The byte
the host shifts in is ignored (R114).
-/

namespace Sys2Proof.Machine

open Sys2Proof

/-- `RD reg` by address (R114): `dout := MemRead(addr, 1)`. -/
def execRd (chip : ChipAddr) (addr : RegAddr) (_sdi : Byte) (s : State) : Outcome :=
  spiRead chip addr (memRead addr) s

/-- `RD TxRxDataA`: pop the receive FIFO (R162, R114). -/
def execRdTxRxDataA (chip : ChipAddr) (_sdi : Byte) (s : State) : Outcome :=
  spiRead chip 0x00 (rxPop .a) s

/-- `RD TxRxDataB`: pop the receive FIFO (R162, R114). -/
def execRdTxRxDataB (chip : ChipAddr) (_sdi : Byte) (s : State) : Outcome :=
  spiRead chip 0x01 (rxPop .b) s

/-- `RD Interrupt`: return and clear all eight flags (R18, R114). -/
def execRdInterrupt (chip : ChipAddr) (_sdi : Byte) (s : State) : Outcome :=
  spiRead chip 0x02 (readInterrupt) s

/-- `RD InterruptEn`: the stored byte (R19, R114). -/
def execRdInterruptEn (chip : ChipAddr) (_sdi : Byte) (s : State) : Outcome :=
  spiRead chip 0x03 (fun t => (t.interruptEn, t)) s

/-- `RD RxFIFOLvlA`: the number of bytes available (R20, R114). -/
def execRdRxFIFOLvlA (chip : ChipAddr) (_sdi : Byte) (s : State) : Outcome :=
  spiRead chip 0x04 (fun t => (rxLevel .a t, t)) s

/-- `RD RxFIFOLvlB`: the number of bytes available (R20, R114). -/
def execRdRxFIFOLvlB (chip : ChipAddr) (_sdi : Byte) (s : State) : Outcome :=
  spiRead chip 0x05 (fun t => (rxLevel .b t, t)) s

/-- `RD CQCtrlA`: the stored part; the triggers read 0 (R22, R114). -/
def execRdCQCtrlA (chip : ChipAddr) (_sdi : Byte) (s : State) : Outcome :=
  spiRead chip 0x06 (fun t => ((t.chan .a).cqctrl, t)) s

/-- `RD CQCtrlB`: the stored part; the triggers read 0 (R22, R114). -/
def execRdCQCtrlB (chip : ChipAddr) (_sdi : Byte) (s : State) : Outcome :=
  spiRead chip 0x07 (fun t => ((t.chan .b).cqctrl, t)) s

/-- `RD CQErrA`: return and clear all eight flags (R24, R114). -/
def execRdCQErrA (chip : ChipAddr) (_sdi : Byte) (s : State) : Outcome :=
  spiRead chip 0x08 (readCqErr .a) s

/-- `RD CQErrB`: return and clear all eight flags (R24, R114). -/
def execRdCQErrB (chip : ChipAddr) (_sdi : Byte) (s : State) : Outcome :=
  spiRead chip 0x09 (readCqErr .b) s

/-- `RD MsgCtrlA`: the stored byte (R25, R114). -/
def execRdMsgCtrlA (chip : ChipAddr) (_sdi : Byte) (s : State) : Outcome :=
  spiRead chip 0x0A (fun t => ((t.chan .a).msgCtrl, t)) s

/-- `RD MsgCtrlB`: the stored byte (R25, R114). -/
def execRdMsgCtrlB (chip : ChipAddr) (_sdi : Byte) (s : State) : Outcome :=
  spiRead chip 0x0B (fun t => ((t.chan .b).msgCtrl, t)) s

/-- `RD ChanStatA`: FramerEn and the fault inputs (R26, R114). -/
def execRdChanStatA (chip : ChipAddr) (_sdi : Byte) (s : State) : Outcome :=
  spiRead chip 0x0C (fun t => (chanStatByte (t.chan .a).framerEn (t.env.chanFault .a), t)) s

/-- `RD ChanStatB`: FramerEn and the fault inputs (R26, R114). -/
def execRdChanStatB (chip : ChipAddr) (_sdi : Byte) (s : State) : Outcome :=
  spiRead chip 0x0D (fun t => (chanStatByte (t.chan .b).framerEn (t.env.chanFault .b), t)) s

/-- `RD LEDCtrl`: the stored byte (R40, R114). -/
def execRdLEDCtrl (chip : ChipAddr) (_sdi : Byte) (s : State) : Outcome :=
  spiRead chip 0x0E (fun t => (t.storage.ledCtrl, t)) s

/-- `RD Trigger`: the stored byte (R40, R114). -/
def execRdTrigger (chip : ChipAddr) (_sdi : Byte) (s : State) : Outcome :=
  spiRead chip 0x0F (fun t => (t.storage.trigger, t)) s

/-- `RD CQCfgA`: the stored byte (R40, R114). -/
def execRdCQCfgA (chip : ChipAddr) (_sdi : Byte) (s : State) : Outcome :=
  spiRead chip 0x10 (fun t => (t.storage.cqCfgA, t)) s

/-- `RD CQCfgB`: the stored byte (R40, R114). -/
def execRdCQCfgB (chip : ChipAddr) (_sdi : Byte) (s : State) : Outcome :=
  spiRead chip 0x11 (fun t => (t.storage.cqCfgB, t)) s

/-- `RD CyclTmrA`: the stored byte (R40, R114). -/
def execRdCyclTmrA (chip : ChipAddr) (_sdi : Byte) (s : State) : Outcome :=
  spiRead chip 0x12 (fun t => (t.storage.cyclTmrA, t)) s

/-- `RD CyclTmrB`: the stored byte (R40, R114). -/
def execRdCyclTmrB (chip : ChipAddr) (_sdi : Byte) (s : State) : Outcome :=
  spiRead chip 0x13 (fun t => (t.storage.cyclTmrB, t)) s

/-- `RD DeviceDlyA`: the stored byte (R40, R114). -/
def execRdDeviceDlyA (chip : ChipAddr) (_sdi : Byte) (s : State) : Outcome :=
  spiRead chip 0x14 (fun t => (t.storage.deviceDlyA, t)) s

/-- `RD DeviceDlyB`: the stored byte (R40, R114). -/
def execRdDeviceDlyB (chip : ChipAddr) (_sdi : Byte) (s : State) : Outcome :=
  spiRead chip 0x15 (fun t => (t.storage.deviceDlyB, t)) s

/-- `RD TrigAssgnA`: the stored byte (R40, R114). -/
def execRdTrigAssgnA (chip : ChipAddr) (_sdi : Byte) (s : State) : Outcome :=
  spiRead chip 0x16 (fun t => (t.storage.trigAssgnA, t)) s

/-- `RD TrigAssgnB`: the stored byte (R40, R114). -/
def execRdTrigAssgnB (chip : ChipAddr) (_sdi : Byte) (s : State) : Outcome :=
  spiRead chip 0x17 (fun t => (t.storage.trigAssgnB, t)) s

/-- `RD LCnfgA`: the stored byte (R40, R114). -/
def execRdLCnfgA (chip : ChipAddr) (_sdi : Byte) (s : State) : Outcome :=
  spiRead chip 0x18 (fun t => (t.storage.lCnfgA, t)) s

/-- `RD LCnfgB`: the stored byte (R40, R114). -/
def execRdLCnfgB (chip : ChipAddr) (_sdi : Byte) (s : State) : Outcome :=
  spiRead chip 0x19 (fun t => (t.storage.lCnfgB, t)) s

/-- `RD IOStCfgA`: the stored byte (R40, R114). -/
def execRdIOStCfgA (chip : ChipAddr) (_sdi : Byte) (s : State) : Outcome :=
  spiRead chip 0x1A (fun t => (t.storage.ioStCfgA, t)) s

/-- `RD IOStCfgB`: the stored byte (R40, R114). -/
def execRdIOStCfgB (chip : ChipAddr) (_sdi : Byte) (s : State) : Outcome :=
  spiRead chip 0x1B (fun t => (t.storage.ioStCfgB, t)) s

/-- `RD DrvrCurrLim`: the stored byte (R40, R114). -/
def execRdDrvrCurrLim (chip : ChipAddr) (_sdi : Byte) (s : State) : Outcome :=
  spiRead chip 0x1C (fun t => (t.storage.drvrCurrLim, t)) s

/-- `RD Clock`: the stored byte (R40, R114). -/
def execRdClock (chip : ChipAddr) (_sdi : Byte) (s : State) : Outcome :=
  spiRead chip 0x1D (fun t => (t.storage.clock, t)) s

/-- `RD Status`: `status_in` (R27, R114). -/
def execRdStatus (chip : ChipAddr) (_sdi : Byte) (s : State) : Outcome :=
  spiRead chip 0x1E (fun t => (t.env.statusIn, t)) s

/-- `RD RevID`: `REVID` (R28, R114). -/
def execRdRevID (chip : ChipAddr) (_sdi : Byte) (s : State) : Outcome :=
  spiRead chip 0x1F (fun t => (t.params.revId, t)) s

end Sys2Proof.Machine
end

