-- ==== Sys2Proof/Machine/SpiWrite.lean ====
section
/-!
DEFINITION. The register-write family: the meaning of `WR` and of each of the 32 rows `WR_<register>` of the opcode table
(40_spi_transactions.md R113; 30_encoding.md R95). Each row states its own effect; `WR` is the dispatch of R111.
-/

namespace Sys2Proof.Machine

open Sys2Proof

/-- `WR reg, v` by address (R113): `MemWrite(addr, 1, v)`. -/
def execWr (chip : ChipAddr) (addr : RegAddr) (data : Byte) (s : State) : Outcome :=
  spiWrite chip addr (memWrite addr data) s

/-- `WR TxRxDataA`: push onto the transmit FIFO (R161, R113). -/
def execWrTxRxDataA (chip : ChipAddr) (data : Byte) (s : State) : Outcome :=
  spiWrite chip 0x00 (fun t => .next (txPush .a data t)) s

/-- `WR TxRxDataB`: push onto the transmit FIFO (R161, R113). -/
def execWrTxRxDataB (chip : ChipAddr) (data : Byte) (s : State) : Outcome :=
  spiWrite chip 0x01 (fun t => .next (txPush .b data t)) s

/-- `WR Interrupt`: ignored (R18, R113). -/
def execWrInterrupt (chip : ChipAddr) (_data : Byte) (s : State) : Outcome :=
  spiWrite chip 0x02 (fun t => .next t) s

/-- `WR InterruptEn`: store (R19, R113). -/
def execWrInterruptEn (chip : ChipAddr) (data : Byte) (s : State) : Outcome :=
  spiWrite chip 0x03 (fun t => .next { t with interruptEn := data }) s

/-- `WR RxFIFOLvlA`: ignored (R20, R113). -/
def execWrRxFIFOLvlA (chip : ChipAddr) (_data : Byte) (s : State) : Outcome :=
  spiWrite chip 0x04 (fun t => .next t) s

/-- `WR RxFIFOLvlB`: ignored (R20, R113). -/
def execWrRxFIFOLvlB (chip : ChipAddr) (_data : Byte) (s : State) : Outcome :=
  spiWrite chip 0x05 (fun t => .next t) s

/-- `WR CQCtrlA`: store `v & 0xE2`, then the triggers (R22, R113). -/
def execWrCQCtrlA (chip : ChipAddr) (data : Byte) (s : State) : Outcome :=
  spiWrite chip 0x06 (writeCqCtrl .a data) s

/-- `WR CQCtrlB`: store `v & 0xE2`, then the triggers (R22, R113). -/
def execWrCQCtrlB (chip : ChipAddr) (data : Byte) (s : State) : Outcome :=
  spiWrite chip 0x07 (writeCqCtrl .b data) s

/-- `WR CQErrA`: ignored (R24, R113). -/
def execWrCQErrA (chip : ChipAddr) (_data : Byte) (s : State) : Outcome :=
  spiWrite chip 0x08 (fun t => .next t) s

/-- `WR CQErrB`: ignored (R24, R113). -/
def execWrCQErrB (chip : ChipAddr) (_data : Byte) (s : State) : Outcome :=
  spiWrite chip 0x09 (fun t => .next t) s

/-- `WR MsgCtrlA`: store (R25, R113). -/
def execWrMsgCtrlA (chip : ChipAddr) (data : Byte) (s : State) : Outcome :=
  spiWrite chip 0x0A (fun t => .next (setMsgCtrl .a data t)) s

/-- `WR MsgCtrlB`: store (R25, R113). -/
def execWrMsgCtrlB (chip : ChipAddr) (data : Byte) (s : State) : Outcome :=
  spiWrite chip 0x0B (fun t => .next (setMsgCtrl .b data t)) s

/-- `WR ChanStatA`: bit 7 resets the block, else store bit 6 (R26, R113). -/
def execWrChanStatA (chip : ChipAddr) (data : Byte) (s : State) : Outcome :=
  spiWrite chip 0x0C (fun t => .next (writeChanStat .a data t)) s

/-- `WR ChanStatB`: bit 7 resets the block, else store bit 6 (R26, R113). -/
def execWrChanStatB (chip : ChipAddr) (data : Byte) (s : State) : Outcome :=
  spiWrite chip 0x0D (fun t => .next (writeChanStat .b data t)) s

/-- `WR LEDCtrl`: store (R40, R113). -/
def execWrLEDCtrl (chip : ChipAddr) (data : Byte) (s : State) : Outcome :=
  spiWrite chip 0x0E (fun t => .next { t with storage := { t.storage with ledCtrl := data } }) s

/-- `WR Trigger`: store (R40, R113). -/
def execWrTrigger (chip : ChipAddr) (data : Byte) (s : State) : Outcome :=
  spiWrite chip 0x0F (fun t => .next { t with storage := { t.storage with trigger := data } }) s

/-- `WR CQCfgA`: store (R40, R113). -/
def execWrCQCfgA (chip : ChipAddr) (data : Byte) (s : State) : Outcome :=
  spiWrite chip 0x10 (fun t => .next { t with storage := { t.storage with cqCfgA := data } }) s

/-- `WR CQCfgB`: store (R40, R113). -/
def execWrCQCfgB (chip : ChipAddr) (data : Byte) (s : State) : Outcome :=
  spiWrite chip 0x11 (fun t => .next { t with storage := { t.storage with cqCfgB := data } }) s

/-- `WR CyclTmrA`: store (R40, R113). -/
def execWrCyclTmrA (chip : ChipAddr) (data : Byte) (s : State) : Outcome :=
  spiWrite chip 0x12 (fun t => .next { t with storage := { t.storage with cyclTmrA := data } }) s

/-- `WR CyclTmrB`: store (R40, R113). -/
def execWrCyclTmrB (chip : ChipAddr) (data : Byte) (s : State) : Outcome :=
  spiWrite chip 0x13 (fun t => .next { t with storage := { t.storage with cyclTmrB := data } }) s

/-- `WR DeviceDlyA`: store (R40, R113). -/
def execWrDeviceDlyA (chip : ChipAddr) (data : Byte) (s : State) : Outcome :=
  spiWrite chip 0x14 (fun t => .next { t with storage := { t.storage with deviceDlyA := data } }) s

/-- `WR DeviceDlyB`: store (R40, R113). -/
def execWrDeviceDlyB (chip : ChipAddr) (data : Byte) (s : State) : Outcome :=
  spiWrite chip 0x15 (fun t => .next { t with storage := { t.storage with deviceDlyB := data } }) s

/-- `WR TrigAssgnA`: store (R40, R113). -/
def execWrTrigAssgnA (chip : ChipAddr) (data : Byte) (s : State) : Outcome :=
  spiWrite chip 0x16 (fun t => .next { t with storage := { t.storage with trigAssgnA := data } }) s

/-- `WR TrigAssgnB`: store (R40, R113). -/
def execWrTrigAssgnB (chip : ChipAddr) (data : Byte) (s : State) : Outcome :=
  spiWrite chip 0x17 (fun t => .next { t with storage := { t.storage with trigAssgnB := data } }) s

/-- `WR LCnfgA`: store (R40, R113). -/
def execWrLCnfgA (chip : ChipAddr) (data : Byte) (s : State) : Outcome :=
  spiWrite chip 0x18 (fun t => .next { t with storage := { t.storage with lCnfgA := data } }) s

/-- `WR LCnfgB`: store (R40, R113). -/
def execWrLCnfgB (chip : ChipAddr) (data : Byte) (s : State) : Outcome :=
  spiWrite chip 0x19 (fun t => .next { t with storage := { t.storage with lCnfgB := data } }) s

/-- `WR IOStCfgA`: store (R40, R113). -/
def execWrIOStCfgA (chip : ChipAddr) (data : Byte) (s : State) : Outcome :=
  spiWrite chip 0x1A (fun t => .next { t with storage := { t.storage with ioStCfgA := data } }) s

/-- `WR IOStCfgB`: store (R40, R113). -/
def execWrIOStCfgB (chip : ChipAddr) (data : Byte) (s : State) : Outcome :=
  spiWrite chip 0x1B (fun t => .next { t with storage := { t.storage with ioStCfgB := data } }) s

/-- `WR DrvrCurrLim`: store (R40, R113). -/
def execWrDrvrCurrLim (chip : ChipAddr) (data : Byte) (s : State) : Outcome :=
  spiWrite chip 0x1C (fun t => .next { t with storage := { t.storage with drvrCurrLim := data } }) s

/-- `WR Clock`: store (R40, R113). -/
def execWrClock (chip : ChipAddr) (data : Byte) (s : State) : Outcome :=
  spiWrite chip 0x1D (fun t => .next { t with storage := { t.storage with clock := data } }) s

/-- `WR Status`: ignored (R27, R113). -/
def execWrStatus (chip : ChipAddr) (_data : Byte) (s : State) : Outcome :=
  spiWrite chip 0x1E (fun t => .next t) s

/-- `WR RevID`: ignored (R28, R113). -/
def execWrRevID (chip : ChipAddr) (_data : Byte) (s : State) : Outcome :=
  spiWrite chip 0x1F (fun t => .next t) s

end Sys2Proof.Machine
end

