-- ==== Sys2Proof/Machine/Dispatch.lean ====
section
/-!
DEFINITION. The dispatch: one arm per constructor of `Instr`, each one direct call of the instruction's meaning.
-/

namespace Sys2Proof.Machine

open Sys2Proof

def exec (i : Instr) (s : State) : Host.Outcome State Fault Refusal :=
  match i with
  -- the generic transactions (R113, R114)
  | .wr chip addr data => Sys2Proof.Machine.execWr chip addr data s
  | .rd chip addr sdi => Sys2Proof.Machine.execRd chip addr sdi s
  -- one row per direction and register (R95)
  | .wrTxRxDataA chip data => Sys2Proof.Machine.execWrTxRxDataA chip data s
  | .rdTxRxDataA chip sdi => Sys2Proof.Machine.execRdTxRxDataA chip sdi s
  | .wrTxRxDataB chip data => Sys2Proof.Machine.execWrTxRxDataB chip data s
  | .rdTxRxDataB chip sdi => Sys2Proof.Machine.execRdTxRxDataB chip sdi s
  | .wrInterrupt chip data => Sys2Proof.Machine.execWrInterrupt chip data s
  | .rdInterrupt chip sdi => Sys2Proof.Machine.execRdInterrupt chip sdi s
  | .wrInterruptEn chip data => Sys2Proof.Machine.execWrInterruptEn chip data s
  | .rdInterruptEn chip sdi => Sys2Proof.Machine.execRdInterruptEn chip sdi s
  | .wrRxFIFOLvlA chip data => Sys2Proof.Machine.execWrRxFIFOLvlA chip data s
  | .rdRxFIFOLvlA chip sdi => Sys2Proof.Machine.execRdRxFIFOLvlA chip sdi s
  | .wrRxFIFOLvlB chip data => Sys2Proof.Machine.execWrRxFIFOLvlB chip data s
  | .rdRxFIFOLvlB chip sdi => Sys2Proof.Machine.execRdRxFIFOLvlB chip sdi s
  | .wrCQCtrlA chip data => Sys2Proof.Machine.execWrCQCtrlA chip data s
  | .rdCQCtrlA chip sdi => Sys2Proof.Machine.execRdCQCtrlA chip sdi s
  | .wrCQCtrlB chip data => Sys2Proof.Machine.execWrCQCtrlB chip data s
  | .rdCQCtrlB chip sdi => Sys2Proof.Machine.execRdCQCtrlB chip sdi s
  | .wrCQErrA chip data => Sys2Proof.Machine.execWrCQErrA chip data s
  | .rdCQErrA chip sdi => Sys2Proof.Machine.execRdCQErrA chip sdi s
  | .wrCQErrB chip data => Sys2Proof.Machine.execWrCQErrB chip data s
  | .rdCQErrB chip sdi => Sys2Proof.Machine.execRdCQErrB chip sdi s
  | .wrMsgCtrlA chip data => Sys2Proof.Machine.execWrMsgCtrlA chip data s
  | .rdMsgCtrlA chip sdi => Sys2Proof.Machine.execRdMsgCtrlA chip sdi s
  | .wrMsgCtrlB chip data => Sys2Proof.Machine.execWrMsgCtrlB chip data s
  | .rdMsgCtrlB chip sdi => Sys2Proof.Machine.execRdMsgCtrlB chip sdi s
  | .wrChanStatA chip data => Sys2Proof.Machine.execWrChanStatA chip data s
  | .rdChanStatA chip sdi => Sys2Proof.Machine.execRdChanStatA chip sdi s
  | .wrChanStatB chip data => Sys2Proof.Machine.execWrChanStatB chip data s
  | .rdChanStatB chip sdi => Sys2Proof.Machine.execRdChanStatB chip sdi s
  | .wrLEDCtrl chip data => Sys2Proof.Machine.execWrLEDCtrl chip data s
  | .rdLEDCtrl chip sdi => Sys2Proof.Machine.execRdLEDCtrl chip sdi s
  | .wrTrigger chip data => Sys2Proof.Machine.execWrTrigger chip data s
  | .rdTrigger chip sdi => Sys2Proof.Machine.execRdTrigger chip sdi s
  | .wrCQCfgA chip data => Sys2Proof.Machine.execWrCQCfgA chip data s
  | .rdCQCfgA chip sdi => Sys2Proof.Machine.execRdCQCfgA chip sdi s
  | .wrCQCfgB chip data => Sys2Proof.Machine.execWrCQCfgB chip data s
  | .rdCQCfgB chip sdi => Sys2Proof.Machine.execRdCQCfgB chip sdi s
  | .wrCyclTmrA chip data => Sys2Proof.Machine.execWrCyclTmrA chip data s
  | .rdCyclTmrA chip sdi => Sys2Proof.Machine.execRdCyclTmrA chip sdi s
  | .wrCyclTmrB chip data => Sys2Proof.Machine.execWrCyclTmrB chip data s
  | .rdCyclTmrB chip sdi => Sys2Proof.Machine.execRdCyclTmrB chip sdi s
  | .wrDeviceDlyA chip data => Sys2Proof.Machine.execWrDeviceDlyA chip data s
  | .rdDeviceDlyA chip sdi => Sys2Proof.Machine.execRdDeviceDlyA chip sdi s
  | .wrDeviceDlyB chip data => Sys2Proof.Machine.execWrDeviceDlyB chip data s
  | .rdDeviceDlyB chip sdi => Sys2Proof.Machine.execRdDeviceDlyB chip sdi s
  | .wrTrigAssgnA chip data => Sys2Proof.Machine.execWrTrigAssgnA chip data s
  | .rdTrigAssgnA chip sdi => Sys2Proof.Machine.execRdTrigAssgnA chip sdi s
  | .wrTrigAssgnB chip data => Sys2Proof.Machine.execWrTrigAssgnB chip data s
  | .rdTrigAssgnB chip sdi => Sys2Proof.Machine.execRdTrigAssgnB chip sdi s
  | .wrLCnfgA chip data => Sys2Proof.Machine.execWrLCnfgA chip data s
  | .rdLCnfgA chip sdi => Sys2Proof.Machine.execRdLCnfgA chip sdi s
  | .wrLCnfgB chip data => Sys2Proof.Machine.execWrLCnfgB chip data s
  | .rdLCnfgB chip sdi => Sys2Proof.Machine.execRdLCnfgB chip sdi s
  | .wrIOStCfgA chip data => Sys2Proof.Machine.execWrIOStCfgA chip data s
  | .rdIOStCfgA chip sdi => Sys2Proof.Machine.execRdIOStCfgA chip sdi s
  | .wrIOStCfgB chip data => Sys2Proof.Machine.execWrIOStCfgB chip data s
  | .rdIOStCfgB chip sdi => Sys2Proof.Machine.execRdIOStCfgB chip sdi s
  | .wrDrvrCurrLim chip data => Sys2Proof.Machine.execWrDrvrCurrLim chip data s
  | .rdDrvrCurrLim chip sdi => Sys2Proof.Machine.execRdDrvrCurrLim chip sdi s
  | .wrClock chip data => Sys2Proof.Machine.execWrClock chip data s
  | .rdClock chip sdi => Sys2Proof.Machine.execRdClock chip sdi s
  | .wrStatus chip data => Sys2Proof.Machine.execWrStatus chip data s
  | .rdStatus chip sdi => Sys2Proof.Machine.execRdStatus chip sdi s
  | .wrRevID chip data => Sys2Proof.Machine.execWrRevID chip data s
  | .rdRevID chip sdi => Sys2Proof.Machine.execRdRevID chip sdi s
  -- the mode requests (R132)
  | .setmode ch mode => Sys2Proof.Machine.execSetmode ch mode s
  | .setmodeInactive ch => Sys2Proof.Machine.execSetmodeInactive ch s
  | .setmodeWakeup ch => Sys2Proof.Machine.execSetmodeWakeup ch s
  | .setmodeOperate ch => Sys2Proof.Machine.execSetmodeOperate ch s
  | .setmodeReserved ch => Sys2Proof.Machine.execSetmodeReserved ch s

end Sys2Proof.Machine
end

