-- ==== Sys2Proof/Machine/Transport.lean ====
section
/-!
DEFINITION. How a frame reaches the block: an SPI transaction of any number of clocks with its completion status
(40_spi_transactions.md R110, R115; 30_encoding.md R97 (c)), under the lock of 43_host_sequences.md R211 and after the boot
wait of 70_reset_and_hazards.md R264; and a mode request on the command port (R96).
-/

namespace Sys2Proof.Machine

open Sys2Proof

/-- Acquire `spi_lock` (R211). -/
def acquireLock (s : State) : State := { s with host := { s.host with spiLock := true } }

/-- Release `spi_lock` (R211). -/
def releaseLock (s : State) : State := { s with host := { s.host with spiLock := false } }

/-- The status the SPI primitive reports to the host (R110, R200). -/
def setExchange (ok : Bool) (s : State) : State := { s with spi := { s.spi with exchangeOk := ok } }

/-- A transaction of fewer than 16 clocks (R97 (c)): no register access. From 8 clocks on the command byte was latched
(R14), unless it carries another chip's address (R97 (b), R116); what SDO carried is free (R94). That a short transaction
latches is DEDUCED (notes/assumptions/5.md). -/
def shortShift (clocks : Nat) (sdi : BitVec 16) (s : State) : State :=
  spiShift (if 8 ≤ clocks ∧ fieldChip sdi = s.params.chipAddr then sdi.extractLsb' 8 8 else s.spi.cmd) s

/-- What a transaction the block took part in does: the access of R110 for 16 clocks, no access for fewer, no meaning for
more (R97 (c)). R97 (b) ignores a transaction with another chip's address and R97 (c) refuses one of more than 16 clocks; one
that is both is refused here: DESIGN CHOICE, safe (notes/assumptions/26.md). -/
def clockedIn (clocks : Nat) (sdi : BitVec 16) (s : State) : Outcome :=
  match decodeClocks clocks sdi with
  | .ok i => exec i s
  | .error .shortTransaction => .next (shortShift clocks sdi s)
  | .error .longTransaction => .refused .longTransaction

/-- The access under its status (R110, R115): performed whole, or, when it failed and the environment so chooses, not at
all. What SDO carried in one that was not performed is left open and free here, as in one the block ignores (R94, R116):
DESIGN CHOICE, safe (notes/assumptions/27.md). -/
def access (clocks : Nat) (sdi : BitVec 16) (st : SpiStatus) (s : State) : Outcome :=
  match st with
  | .ok => onNext (clockedIn clocks sdi s) fun t => .next (setExchange true t)
  | .fail true => onNext (clockedIn clocks sdi s) fun t => .next (setExchange false t)
  | .fail false => .next (setExchange false (spiShift s.spi.cmd s))

/-- One `exchange` (R200, R211): the lock is held for exactly this transaction, which has no meaning before the boot wait
has ended (R264). R264 refuses `a transaction` there, 93_implementation_defined.md U10 a register access, and R97 (b), (c)
ignore one with another chip's address and one of fewer than 16 clocks; here every one is refused: DESIGN CHOICE, safe
(notes/assumptions/28.md). -/
def deliverSpi (clocks : Nat) (sdi : BitVec 16) (st : SpiStatus) (s : State) : Outcome :=
  if s.host.spiLock = true then .fault .spiLockHeld
  else if s.boot ≠ .ready then .refused .beforeBootup
  else onNext (access clocks sdi st (acquireLock s)) fun t => .next (releaseLock t)

/-- A mode request on the command port (R96). -/
def deliverCmd3 (w : BitVec 3) (s : State) : Outcome := exec (decodeCmd3 w) s

end Sys2Proof.Machine
end

