-- ==== Sys2Proof/Machine/HostSeq.lean ====
section
/-!
DEFINITION. The host sequences (43_host_sequences.md): `writeRegister`, `readRegister`, `SETBITS`, `reset`, `initPorts`,
`getPort`, `setMode`, `sendIOLData`. They run on the host, one action a step; between two actions any other event may fall
(R209, R211). Their only means of touching the block are a transaction, a mode request and letting ticks pass (R200).
-/

namespace Sys2Proof.Machine

open Sys2Proof

/-! ## Slots -/

/-- The chip-level sequence of a caller. -/
def callerTask (caller : Nat) : List (Nat × Running) → Option Running
  | [] => none
  | (n, r) :: rest => if caller = n then some r else callerTask caller rest

/-- Put a caller's sequence in, callers rising. -/
def putCaller (caller : Nat) (r : Running) : List (Nat × Running) → List (Nat × Running)
  | [] => [(caller, r)]
  | (n, q) :: rest =>
      if caller < n then (caller, r) :: (n, q) :: rest
      else if caller = n then (caller, r) :: rest
      else (n, q) :: putCaller caller r rest

/-- Take a caller's sequence out. -/
def dropCaller (caller : Nat) (l : List (Nat × Running)) : List (Nat × Running) := l.filter fun p => p.1 ≠ caller

/-- The sequence running in a slot. -/
def HostSide.task (h : HostSide) : Slot → Option Running
  | .chip caller => callerTask caller h.chipTasks
  | .chan .a => h.chanATask
  | .chan .b => h.chanBTask

/-- Replace the sequence in a slot. -/
def HostSide.setTask (h : HostSide) (slot : Slot) (r : Option Running) : HostSide :=
  match slot with
  | .chip caller =>
      { h with chipTasks := match r with
          | some t => putCaller caller t h.chipTasks
          | none => dropCaller caller h.chipTasks }
  | .chan .a => { h with chanATask := r }
  | .chan .b => { h with chanBTask := r }

/-- The slot a call runs in: a channel-level sequence in the controller of its channel, the others at chip level under
their caller. -/
def HostCall.slot (caller : Nat) : HostCall → Slot
  | .writeRegister _ _ => .chip caller
  | .readRegister _ => .chip caller
  | .setBits _ _ => .chip caller
  | .reset => .chip caller
  | .initPorts => .chip caller
  | .getPort _ => .chip caller
  | .setMode x _ => .chan x
  | .sendIOLData x _ _ _ => .chan x

/-- The sequence goes on with `t` after `wait` ticks. -/
def become (slot : Slot) (t : Task) (wait : Nat) (s : State) : State :=
  { s with host := s.host.setTask slot (some { task := t, wait := wait }) }

/-- A call returns `r` at once, whatever runs in its slot. -/
def answer (slot : Slot) (r : HostResult) (s : State) : State :=
  { s with host := { s.host with returns := s.host.returns ++ [(slot, r)] } }

/-- The sequence returns `r`. -/
def finish (slot : Slot) (r : HostResult) (s : State) : State :=
  { s with host := { s.host.setTask slot none with returns := s.host.returns ++ [(slot, r)] } }

/-! ## Actions -/

/-- The 16 bits the host sends for a register access (R201, R202). -/
def accessWord (rw : BitVec 1) (a : RegAddr) (d : Byte) (s : State) : BitVec 16 :=
  spiWord rw s.params.chipAddr a d

/-- One transaction of a sequence: on success go on with the second byte received, on failure return `BusError` (R201,
R202, R209). -/
def transact (slot : Slot) (rw : BitVec 1) (a : RegAddr) (d : Byte) (st : SpiStatus) (k : Byte → State → State)
    (s : State) : Outcome :=
  onNext (deliverSpi 16 (accessWord rw a d s) st s) fun t =>
    .next (if t.spi.exchangeOk then k t.spi.sdoData t else finish slot .busError t)

/-- The writes left, then `fin` (R201, R204, R205). -/
def afterWrites (slot : Slot) (mk : List (RegAddr × Byte) → Task) (fin : State → State) (ws : List (RegAddr × Byte))
    (s : State) : State :=
  match ws with
  | [] => fin s
  | _ :: _ => become slot (mk ws) 0 s

/-- The end of `initPorts`: the two channel handles now exist (R205). -/
def finishInit (slot : Slot) (s : State) : State :=
  finish slot .ok { s with host := { s.host with portsInit := true } }

/-! ## `sendIOLData` (R209, R210) -/

/-- The address of a paired register of channel X: base + o(X) (R6). -/
def pairAddr (base : RegAddr) : Chan → RegAddr
  | .a => base
  | .b => base + 1

/-- After a load write: the bytes left, and with none left the read of SETBITS(CQCtrlX, 0x01). -/
def afterLoad (slot : Slot) (c : SendCtx) (load : List Byte) (s : State) : State := become slot (.sendLoad c load) 0 s

/-- After the pops of one pass of the loop: exit when all bytes are in or the budget is spent, else wait (R209). -/
def afterPops (slot : Slot) (c : SendCtx) (s : State) : State :=
  if c.got.length = c.expected then become slot (.sendErr c false) 0 s
  else if s.params.pollBudgetMs ≤ c.elapsed then become slot (.sendErr c true) 0 s
  else become slot (.sendLevel { c with elapsed := c.elapsed + s.params.pollIntervalMs }) s.params.pollIntervalMs s

/-- After a level read: pop `min(lvl, expected - got)` bytes (R209). -/
def afterLevel (slot : Slot) (c : SendCtx) (lvl : Byte) (s : State) : State :=
  match min lvl.toNat (c.expected - c.got.length) with
  | 0 => afterPops slot c s
  | n + 1 => become slot (.sendPop c n) 0 s

/-- After one byte read (R209). -/
def afterPop (slot : Slot) (c : SendCtx) (n : Nat) (b : Byte) (s : State) : State :=
  match n with
  | 0 => afterPops slot { c with got := c.got ++ [b] } s
  | k + 1 => become slot (.sendPop { c with got := c.got ++ [b] } k) 0 s

/-- The result (R210). -/
def sendResult (c : SendCtx) (timedOut : Bool) (e : Byte) : HostResult :=
  if timedOut then .transferTimeout c.got (transferResult e c.got.length c.expected)
  else .transfer c.got (transferResult e c.got.length c.expected)

/-- Does the sequencer still run? The condition of the wait of `setMode` (R207). -/
def WuState.running : WuState → Bool
  | .idle => false
  | .pulsing => true
  | .awaitingResponse => true
  | .established => false
  | .failed => false

/-! ## One action of a running sequence -/

/-- The next action of the sequence in `slot`; `st` is the status of its transaction, if it issues one. An `initPorts`
repeated within one chip lifetime, of which R205 and R264 say nothing but `once per Chip lifetime`, starts the start-up
phase over, so that transactions are refused until its boot wait ends: DESIGN CHOICE, safe (notes/assumptions/25.md). Of two that
overlap, whose callers differ, R205 and R264 say nothing either; both act on the one start-up phase and the latest action
decides it, so the power-on of one ends the power-off hold of the other: DESIGN CHOICE, unsafe (notes/assumptions/29.md). -/
def runTask (slot : Slot) (t : Task) (st : SpiStatus) (s : State) : Outcome :=
  match t with
  | .writes [] => .next (finish slot .ok s)
  | .writes ((a, v) :: ws) => transact slot 0#1 a v st (fun _ => afterWrites slot .writes (finish slot .ok) ws) s
  | .read a => transact slot 1#1 a 0x00 st (fun b => finish slot (.byte b)) s
  | .setBitsRead a m => transact slot 1#1 a 0x00 st (fun b => become slot (.writes [(a, b ||| m)]) 0) s
  | .initPowerOff => .next (become slot .initPowerOn Config.initPowerOffDelay { s with boot := .sensorOff })
  | .initPowerOn =>
      .next (become slot (.initWrites [(0x1D, s.params.initClock), (0x03, s.params.initIrqEn)]) Config.initBootupDelay
        { s with boot := .booting Config.initBootupDelay })
  | .initWrites [] => .next (finishInit slot s)
  | .initWrites ((a, v) :: ws) => transact slot 0#1 a v st (fun _ => afterWrites slot .initWrites (finishInit slot) ws) s
  | .modeRequest x m => onNext (deliverCmd3 (cmdWord x (modeCode m)) s) fun t => .next (become slot (.modePoll x) 0 t)
  | .modePoll x =>
      .next (if (s.chan x).wuState.running then become slot (.modePoll x) 1 s
        else if (s.chan x).wuState = .failed then finish slot (.wakeUpTimeout x) s
        else finish slot .ok s)
  | .sendClearRead c load =>
      transact slot 1#1 (pairAddr 0x06 c.x) 0x00 st (fun b => become slot (.sendClearWrite c load b) 0) s
  | .sendClearWrite c load t0 =>
      transact slot 0#1 (pairAddr 0x06 c.x) (t0 ||| 0x0C) st (fun _ => afterLoad slot c load) s
  | .sendLoad c (b :: load) => transact slot 0#1 (pairAddr 0x00 c.x) b st (fun _ => afterLoad slot c load) s
  | .sendLoad c [] => transact slot 1#1 (pairAddr 0x06 c.x) 0x00 st (fun b => become slot (.sendGoWrite c b) 0) s
  | .sendGoWrite c t0 => transact slot 0#1 (pairAddr 0x06 c.x) (t0 ||| 0x01) st (fun _ => become slot (.sendLevel c) 0) s
  | .sendLevel c => transact slot 1#1 (pairAddr 0x04 c.x) 0x00 st (fun b => afterLevel slot c b) s
  | .sendPop c n => transact slot 1#1 (pairAddr 0x00 c.x) 0x00 st (fun b => afterPop slot c n b) s
  | .sendErr c timedOut =>
      transact slot 1#1 (pairAddr 0x08 c.x) 0x00 st (fun e => finish slot (sendResult c timedOut e)) s

/-- A step of the sequence in a slot: enabled when one runs there and its wait is over (R200). -/
def hostStep (slot : Slot) (st : SpiStatus) (s : State) : Outcome :=
  match s.host.task slot with
  | none => .fault (.hostIdle slot)
  | some r => if r.wait = 0 then runTask slot r.task st s else .fault (.hostWaiting slot)

/-! ## Calls -/

/-- The first `n` bytes of the caller's buffer; a byte the buffer does not have is a free value. -/
def loadBytes (out : List Byte) (n draws : Nat) : List Byte :=
  (List.range n).map fun i => (out[i]?).getD (Config.freeByte (draws + i))

/-- The call with an address: above MAX_REG it has no meaning (R201, 93 U7). -/
def withAddress (address : Nat) (k : RegAddr → State → State) (s : State) : Outcome :=
  if 0x1F < address then .refused .addressAboveMax else .next (k (BitVec.ofNat 5 address) s)

/-- The four writes of `reset()` (R204). -/
def resetWrites : List (RegAddr × Byte) := [(0x0C, 0x80), (0x0D, 0x80), (0x0C, 0x40), (0x0D, 0x40)]

/-- `sendIOLData`: the checks of R208, before any transaction, and the start of the transfer. -/
def startSend (slot : Slot) (x : Chan) (out : List Byte) (n expected : Nat) (s : State) : State :=
  if (s.chan x).wuState ≠ .established then finish slot .notEstablished s
  else if Config.maxMsgLength < n ∨ Config.maxMsgLength < expected then finish slot .invalidLength s
  else become slot (.sendClearRead { x := x, expected := expected, got := [], elapsed := 0 } (loadBytes out n s.draws)) 0
    { s with draws := s.draws + n }

/-- The start of a call in its slot. `getPort` tests `ports_init` and nothing else (R206). -/
def startCall (caller : Nat) (c : HostCall) (s : State) : Outcome :=
  match c with
  | .writeRegister address v => withAddress address (fun a => become (.chip caller) (.writes [(a, v)]) 0) s
  | .readRegister address => withAddress address (fun a => become (.chip caller) (.read a) 0) s
  | .setBits address m => withAddress address (fun a => become (.chip caller) (.setBitsRead a m) 0) s
  | .reset => .next (become (.chip caller) (.writes resetWrites) 0 s)
  | .initPorts => .next (become (.chip caller) .initPowerOff 0 s)
  | .getPort x => .next (answer (.chip caller) (if s.host.portsInit then .handle x else .invalidChannel) s)
  | .setMode x m => .next (become (.chan x) (.modeRequest x m) 0 s)
  | .sendIOLData x out n expected => .next (startSend (.chan x) x out n expected s)

/-- Does the call return at once, with no transaction and no wait on any path (R206)? -/
def HostCall.atOnce : HostCall → Bool
  | .writeRegister _ _ => false
  | .readRegister _ => false
  | .setBits _ _ => false
  | .reset => false
  | .initPorts => false
  | .getPort _ => true
  | .setMode _ _ => false
  | .sendIOLData _ _ _ _ => false

/-- A call of a host sequence: its slot must be free (R211: one sequence at a time within one channel), unless the call
returns at once. -/
def hostCall (caller : Nat) (c : HostCall) (s : State) : Outcome :=
  if c.atOnce then startCall caller c s
  else match s.host.task (c.slot caller) with
    | none => startCall caller c s
    | some _ => .fault (.hostBusy (c.slot caller))

/-! ## Time on the host -/

/-- One tick of a `wait` (R200). -/
def Running.tick (r : Running) : Running := { r with wait := r.wait - 1 }

/-- One tick of every `wait` of the host. -/
def HostSide.tick (h : HostSide) : HostSide :=
  { h with chipTasks := h.chipTasks.map fun p => (p.1, p.2.tick), chanATask := h.chanATask.map Running.tick,
           chanBTask := h.chanBTask.map Running.tick }

/-- One tick of the boot wait (R264 (3)). -/
def BootPhase.tick : BootPhase → BootPhase
  | .notStarted => .notStarted
  | .sensorOff => .sensorOff
  | .booting n => if n ≤ 1 then .ready else .booting (n - 1)
  | .ready => .ready

end Sys2Proof.Machine
end

