-- ==== Sys2Proof/Machine/Schedule.lean ====
section
/-!
DEFINITION. One event, and one step: the next event of the agenda, the total order of 20_memory.md R70, with the urgency of
`PULSE` (41_wakeup_sequencer.md R148).
-/

namespace Sys2Proof.Machine

open Sys2Proof

/-- `Tick` (R139): the sequencers, and the waits of the host and of the start-up sequence, which last that many ticks
(R200, R205). -/
def tickAll (s : State) : State :=
  let t := tickSequencers s
  { t with host := t.host.tick, boot := t.boot.tick }

/-- What an event does (R8, R99). `Tick` is taken here as enabled; `stepAgenda` lets a pending `PULSE` go first. -/
def runEvent (e : Event) (s : State) : Outcome :=
  match e with
  | .spi clocks sdi st => deliverSpi clocks sdi st s
  | .cmd3 w => deliverCmd3 w s
  | .tick => .next (tickAll s)
  | .pulse x => pulseStep x s
  | .lineWurq x => .next (lineWurq x s)
  | .lineRxChar x b parityOk frameOk => .next (lineRxChar x b parityOk frameOk s)
  | .lineRxEnd x => .next (lineRxEnd x s)
  | .lineNoReply x => .next (lineNoReply x s)
  | .cycleErr x => .next (cycleErr x s)
  | .statusEvent st fA fB => .next (statusEvent st fA fB s)
  | .powerOnReset => .next (powerOnReset s)
  | .hostCall caller c => hostCall caller c s
  | .hostStep slot st => hostStep slot st s

/-- With the agenda empty or a `Tick` at its head, a channel in Pulsing makes its `PULSE` (R148: `PULSE` is always enabled
there and no `Tick` comes before it); `k` is what happens when none is. -/
def pulseFirst (s : State) (k : Outcome) : Outcome :=
  match urgentPulse s with
  | some x => pulseStep x s
  | none => k

/-- One step: the head of the agenda happens and leaves it. With nothing to come the block waits (R261). -/
def stepAgenda (s : State) : Outcome :=
  match s.agenda with
  | [] => pulseFirst s (.next s)
  | .tick :: rest => pulseFirst s (runEvent .tick { s with agenda := rest })
  | e :: rest => runEvent e { s with agenda := rest }

/-- The event by which an opcode-table word reaches the block: 16 bits by an SPI transaction, fewer by the command port. -/
def tableEvent (nbits w : Nat) : Event :=
  if nbits = 16 then .spi 16 (BitVec.ofNat 16 w) .ok else .cmd3 (BitVec.ofNat 3 w)

/-- The state in which that word is the next event and nothing stands in its way: the boot wait is over, the lock free. -/
def withNextWord (s : State) (nbits w : Nat) : State :=
  { s with agenda := tableEvent nbits w :: s.agenda, boot := .ready, host := { s.host with spiLock := false } }

end Sys2Proof.Machine
end

