-- ==== Sys2Proof/Machine/Step.lean ====
section
/-!
DEFINITION. The step of the machine, and the state in which a given opcode-table word is what it fetches next.
-/

namespace Sys2Proof.Machine

open Sys2Proof

/-- One step: one event of the total order (20_memory.md R70). -/
def step (s : State) : Host.Outcome State Fault Refusal := stepAgenda s

/-- `s` with the instruction of that table word as its next event (notes/assumptions/3.md). -/
def State.withFetchWord (s : State) (nbits w : Nat) : State := withNextWord s nbits w

end Sys2Proof.Machine
end

