-- ==== Sys2Proof/Safety.lean ====
section
/-!
DEFINITION. What holds in every reachable state: the invariants of 10_state.md R36, and that between two events no
transaction is under way (R14, R211); and what a run that stops says.
-/

namespace Sys2Proof.Machine

open Sys2Proof

/-- The invariants of R36 for one channel, each under the item's letter, and two more: `idle_mode` (R133), and
`pulsing_pulses`, the part of (iii) that a pulse needs: a sequence about to pulse has a pulse left (R143). -/
structure Channel.Inv (c : Channel) : Prop where
  /-- (i) -/
  tx_len : c.txfifo.length ≤ 64
  /-- (i) -/
  rx_len : c.rxfifo.length ≤ 64
  /-- (ii) -/
  ctrl_stored : c.cqctrl &&& 0x1D = 0
  /-- (iii) -/
  pulses_le : c.wuPulses ≤ 5
  /-- (iii) -/
  awaiting_pulses : c.wuState = .awaitingResponse → 1 ≤ c.wuPulses
  /-- (iii) -/
  idle_pulses : c.wuState = .idle → c.wuPulses = 0
  /-- R133: every way into Idle leaves the mode INACTIVE -/
  idle_mode : c.wuState = .idle → c.mode = .inactive
  /-- R143 -/
  pulsing_pulses : c.wuState = .pulsing → c.wuPulses ≤ 4
  /-- (iv) -/
  awaiting_timer : c.wuState = .awaitingResponse → 1 ≤ c.wuTimer
  /-- (iv) -/
  timer_le : c.wuTimer ≤ Config.wuWindow c.wuPulses
  /-- (v) -/
  established_valid : c.wuState = .established → c.comValid = true
  /-- (vi) -/
  restart_running : c.wuRestart = true → c.wuState = .pulsing ∨ c.wuState = .awaitingResponse

/-- The invariant of the block: R36 of both channels, and the SPI phase 0 between events (R14). -/
structure State.BlockInv (s : State) : Prop where
  chA : s.chA.Inv
  chB : s.chB.Inv
  phase : s.spi.phase = .idle

/-- The invariant of the machine: the block's, and the lock free between events (R211). -/
structure State.Inv (s : State) : Prop where
  block : s.BlockInv
  lock : s.host.spiLock = false

/-- A running `sendIOLData` has not read more than it expects, and expects no more than `MAX_MSG_LENGTH` (R208, R209). -/
def SendCtx.Bounded (c : SendCtx) : Prop := c.got.length ≤ c.expected ∧ c.expected ≤ 64

/-- The bounds of R208 and R209 on a task: the bytes still to load are at most 64, the bytes still to pop are among those
still expected. -/
def Task.Bounded : Task → Prop
  | .writes _ => True
  | .read _ => True
  | .setBitsRead _ _ => True
  | .initPowerOff => True
  | .initPowerOn => True
  | .initWrites _ => True
  | .modeRequest _ _ => True
  | .modePoll _ => True
  | .sendClearRead c load => c.Bounded ∧ load.length ≤ 64
  | .sendClearWrite c load _ => c.Bounded ∧ load.length ≤ 64
  | .sendLoad c load => c.Bounded ∧ load.length ≤ 64
  | .sendGoWrite c _ => c.Bounded
  | .sendLevel c => c.Bounded
  | .sendPop c n => c.Bounded ∧ c.got.length + n + 1 ≤ c.expected
  | .sendErr c _ => c.Bounded

/-- Every running sequence of the host keeps its bounds. -/
def State.HostBounded (s : State) : Prop :=
  ∀ slot r, s.host.task slot = some r → r.task.Bounded

/-- A step that stops: a fault or a refusal. -/
def stops (o : Outcome) : Prop := ∀ t, o ≠ .next t

/-! ## The terms the statements use -/

/-- `t` is `u` but for what a transaction leaves on the SPI port, at phase 0 again (R14): the latched command byte and the
bytes on SDO; and the model's count of free values. -/
def AgreesOffPort (t u : State) : Prop :=
  t = { u with
    spi := { u.spi with phase := .idle, cmd := t.spi.cmd, sdoCmd := t.spi.sdoCmd, sdoData := t.spi.sdoData },
    draws := t.draws }

/-- The instruction answers a next state, which is `u` off the SPI port. -/
def Completes (i : Instr) (s u : State) : Prop := ∃ t, exec i s = .next t ∧ AgreesOffPort t u

/-- The instruction answers a next state, which is `u` off the SPI port, with the byte `b` in the data phase of SDO (R94). -/
def Answers (i : Instr) (s : State) (b : Byte) (u : State) : Prop :=
  ∃ t, exec i s = .next t ∧ t.spi.sdoData = b ∧ AgreesOffPort t u

/-- The state after the part of a CQCtrlX write of `v` that comes before CQSend: the stored bits, and RxFifoRst, TxFifoRst
and WuPuls each where its bit is set (R22). -/
def State.afterTriggers (s : State) (x : Chan) (v : Byte) : State :=
  { s.setChan x { s.chan x with
      cqctrl := v &&& 0xE2,
      rxfifo := if v.getLsbD 2 then [] else (s.chan x).rxfifo,
      rxmsg := if v.getLsbD 2 then [] else (s.chan x).rxmsg,
      xfer := if v.getLsbD 2 then .xIdle else (s.chan x).xfer,
      txfifo := if v.getLsbD 3 then [] else (s.chan x).txfifo } with
    out := if v.getLsbD 4 then s.out ++ [.wakePulse x] else s.out }

/-- The timeout events a tick without the WURQ flag is due to report for channel X: one when its fifth window ends (R141). -/
def State.timeoutsDue (s : State) (x : Chan) : List OutEvent :=
  if (s.chan x).wuState = .awaitingResponse ∧ (s.chan x).wuTimer = 1 ∧ 5 ≤ (s.chan x).wuPulses then [.wakeUpTimeout x] else []

/-- The channel holds the values R45 gives for reset, but for its framer enable, which is `framer`; R45 gives none for
`wu_reqmode`, `com_speed` and `com_baud`. -/
structure Channel.AtReset (c : Channel) (framer : Bool) : Prop where
  txfifo : c.txfifo = []
  rxfifo : c.rxfifo = []
  rxmsg : c.rxmsg = []
  xfer : c.xfer = .xIdle
  cqctrl : c.cqctrl = 0x00
  cqerr : c.cqerr = 0x00
  msgCtrl : c.msgCtrl = 0x00
  framerEn : c.framerEn = framer
  wuState : c.wuState = .idle
  wuPulses : c.wuPulses = 0
  wuTimer : c.wuTimer = 0
  wuRestart : c.wuRestart = false
  mode : c.mode = .inactive
  comValid : c.comValid = false

/-- The row of a pair for channel X, of its A row and its B row. -/
def pairRow (x : Chan) (rowA rowB : Instr) : Instr :=
  match x with
  | .a => rowA
  | .b => rowB

/-- The row of a mode request for mode m (R96). -/
def modeRow : Mode → Chan → Instr
  | .inactive, x => .setmodeInactive x
  | .wakeup, x => .setmodeWakeup x
  | .operate, x => .setmodeOperate x

/-- The channel of a paired register (R61). -/
def pairChan? : Reg → Option Chan
  | .txRxData x => some x
  | .interrupt => none
  | .interruptEn => none
  | .rxFifoLvl x => some x
  | .cqCtrl x => some x
  | .cqErr x => some x
  | .msgCtrl x => some x
  | .chanStat x => some x
  | .store _ => none
  | .status => none
  | .revId => none

/-- The channel an event belongs to: the line events of R175, `PULSE X` and the mode requests. -/
def eventChan? : Event → Option Chan
  | .spi _ _ _ => none
  | .cmd3 w => some (chanOfBit (w.extractLsb' 2 1))
  | .tick => none
  | .pulse x => some x
  | .lineWurq x => some x
  | .lineRxChar x _ _ _ => some x
  | .lineRxEnd x => some x
  | .lineNoReply x => some x
  | .cycleErr x => some x
  | .statusEvent _ _ _ => none
  | .powerOnReset => none
  | .hostCall _ _ => none
  | .hostStep _ _ => none

/-- The chip-address field of a transaction; a mode request has none (R91, R96). -/
def chipField? : Instr → Option ChipAddr
  | .wr chip _ _ => some chip
  | .rd chip _ _ => some chip
  | .wrTxRxDataA chip _ => some chip
  | .rdTxRxDataA chip _ => some chip
  | .wrTxRxDataB chip _ => some chip
  | .rdTxRxDataB chip _ => some chip
  | .wrInterrupt chip _ => some chip
  | .rdInterrupt chip _ => some chip
  | .wrInterruptEn chip _ => some chip
  | .rdInterruptEn chip _ => some chip
  | .wrRxFIFOLvlA chip _ => some chip
  | .rdRxFIFOLvlA chip _ => some chip
  | .wrRxFIFOLvlB chip _ => some chip
  | .rdRxFIFOLvlB chip _ => some chip
  | .wrCQCtrlA chip _ => some chip
  | .rdCQCtrlA chip _ => some chip
  | .wrCQCtrlB chip _ => some chip
  | .rdCQCtrlB chip _ => some chip
  | .wrCQErrA chip _ => some chip
  | .rdCQErrA chip _ => some chip
  | .wrCQErrB chip _ => some chip
  | .rdCQErrB chip _ => some chip
  | .wrMsgCtrlA chip _ => some chip
  | .rdMsgCtrlA chip _ => some chip
  | .wrMsgCtrlB chip _ => some chip
  | .rdMsgCtrlB chip _ => some chip
  | .wrChanStatA chip _ => some chip
  | .rdChanStatA chip _ => some chip
  | .wrChanStatB chip _ => some chip
  | .rdChanStatB chip _ => some chip
  | .wrLEDCtrl chip _ => some chip
  | .rdLEDCtrl chip _ => some chip
  | .wrTrigger chip _ => some chip
  | .rdTrigger chip _ => some chip
  | .wrCQCfgA chip _ => some chip
  | .rdCQCfgA chip _ => some chip
  | .wrCQCfgB chip _ => some chip
  | .rdCQCfgB chip _ => some chip
  | .wrCyclTmrA chip _ => some chip
  | .rdCyclTmrA chip _ => some chip
  | .wrCyclTmrB chip _ => some chip
  | .rdCyclTmrB chip _ => some chip
  | .wrDeviceDlyA chip _ => some chip
  | .rdDeviceDlyA chip _ => some chip
  | .wrDeviceDlyB chip _ => some chip
  | .rdDeviceDlyB chip _ => some chip
  | .wrTrigAssgnA chip _ => some chip
  | .rdTrigAssgnA chip _ => some chip
  | .wrTrigAssgnB chip _ => some chip
  | .rdTrigAssgnB chip _ => some chip
  | .wrLCnfgA chip _ => some chip
  | .rdLCnfgA chip _ => some chip
  | .wrLCnfgB chip _ => some chip
  | .rdLCnfgB chip _ => some chip
  | .wrIOStCfgA chip _ => some chip
  | .rdIOStCfgA chip _ => some chip
  | .wrIOStCfgB chip _ => some chip
  | .rdIOStCfgB chip _ => some chip
  | .wrDrvrCurrLim chip _ => some chip
  | .rdDrvrCurrLim chip _ => some chip
  | .wrClock chip _ => some chip
  | .rdClock chip _ => some chip
  | .wrStatus chip _ => some chip
  | .rdStatus chip _ => some chip
  | .wrRevID chip _ => some chip
  | .rdRevID chip _ => some chip
  | .setmode _ _ => none
  | .setmodeInactive _ => none
  | .setmodeWakeup _ => none
  | .setmodeOperate _ => none
  | .setmodeReserved _ => none

end Sys2Proof.Machine
end

