-- ==== Sys2Proof/Certificates/Slice0/Obligations.lean ====
section
/-!
DEFINITION. The statements for the provers. Each docstring names the rule of spec/ it formalises.
-/

open Sys2Proof Sys2Proof.Machine

/-- Decode and encode agree on every well-formed instruction, every operand at every value (R91, R92, R95, R96). -/
def Obligations.DecodeEncodeRoundTrip : Prop :=
  ∀ i : Instr, WellFormed i = true → decode (encode i) = i

/-- No bit of a frame is dropped and no frame is without an instruction (R95, R97 (a)). -/
def Obligations.EveryFrameIsItsEncoding : Prop :=
  ∀ f : Frame, WellFormed (decode f) = true ∧ encode (decode f) = f

/-- The generic rows (R113, R114, R132) and the named rows (R95) are one meaning: the dispatch of R111 and R112 against each register's own effect. -/
def Obligations.GenericRowsMeanTheirNamedRow : Prop :=
  ∀ (i : Instr) (s : State), decode (encode i) = canonical i ∧ exec i s = exec (canonical i) s

/-- Words of the spec's examples (R113, R114; 95_test_vectors.md V40.1, V40.2, P1, P2) decode to their instructions. -/
def Obligations.SampleWordsDecode : Prop :=
  decode (.spi16 0x0340#16) = .wrInterruptEn 0 0x40 ∧ decode (.spi16 0x4710#16) = .wrCQCtrlB 2 0x10 ∧
  decode (.spi16 0x8500#16) = .rdRxFIFOLvlB 0 0x00 ∧ decode (.spi16 0x9F00#16) = .rdRevID 0 0x00 ∧
  decode (.cmd3 0b001#3) = .setmodeWakeup .a ∧ decode (.cmd3 0b110#3) = .setmodeOperate .b ∧
  decode (.cmd3 0b011#3) = .setmodeReserved .a

/-- A step runs the decoded transaction (R8, R110), under the lock of R211. The agenda is the model's own (notes/assumptions/3.md). -/
def Obligations.StepRunsTheDecodedTransaction : Prop :=
  ∀ (s : State) (w : BitVec 16) (i : Instr) (rest : List Event),
    s.agenda = .spi 16 w .ok :: rest → decode (.spi16 w) = i → WellFormed i = true →
    s.boot = .ready → s.host.spiLock = false →
    step s = onNext (exec i (acquireLock { s with agenda := rest })) fun t => .next (releaseLock (setExchange true t))

/-- A step runs the decoded mode request (R8, R96). The agenda is the model's own (notes/assumptions/3.md); that a mode request has its effect in every start-up phase is the model's reading of R264 (notes/assumptions/7.md). -/
def Obligations.StepRunsTheDecodedModeRequest : Prop :=
  ∀ (s : State) (w : BitVec 3) (i : Instr) (rest : List Event),
    s.agenda = .cmd3 w :: rest → decode (.cmd3 w) = i → WellFormed i = true →
    step s = exec i { s with agenda := rest }

/-- Urgency of PULSE (R148): no Tick while a channel is in Pulsing. With both in Pulsing the model pulses A first, a DESIGN CHOICE (notes/assumptions/4.md) this statement does not rest on. -/
def Obligations.PulseComesBeforeTheTick : Prop :=
  ∀ (s : State) (rest : List Event), s.agenda = .tick :: rest →
    (∀ x, (s.chan x).wuState = .pulsing → (s.chan x.other).wuState ≠ .pulsing →
      ∃ t, step s = .next t ∧ runEvent (.pulse x) s = .next t ∧ t.agenda = s.agenda) ∧
    ((∀ x, (s.chan x).wuState ≠ .pulsing) → step s = runEvent .tick { s with agenda := rest })

/-- Transactions of fewer or more than 16 clocks (R97 (c)). That a longer one is refused whatever its chip field is the model's choice (notes/assumptions/26.md). -/
def Obligations.TransactionLengthsOtherThanSixteen : Prop :=
  ∀ (s : State) (clocks : Nat) (sdi : BitVec 16), s.boot = .ready → s.host.spiLock = false →
    (clocks < 16 → ∀ st, ∃ t, runEvent (.spi clocks sdi st) s = .next t ∧ t = { s with spi := t.spi, draws := t.draws }) ∧
    (16 < clocks → runEvent (.spi clocks sdi .ok) s = .refused .longTransaction ∧
      runEvent (.spi clocks sdi (.fail true)) s = .refused .longTransaction)

/-- A transaction before step 3 of the start-up sequence has no meaning (R264). That this takes in one with another chip's address, of any length and with any status is the model's choice (notes/assumptions/28.md). -/
def Obligations.NoTransactionBeforeTheBootWait : Prop :=
  ∀ (s : State) (clocks : Nat) (sdi : BitVec 16) (st : SpiStatus), s.boot ≠ .ready → s.host.spiLock = false →
    runEvent (.spi clocks sdi st) s = .refused .beforeBootup

/-- Whole effect or none (R115); which of the two is the environment's choice. What SDO carried is left open (notes/assumptions/27.md). -/
def Obligations.FailedTransactionIsWholeOrNothing : Prop :=
  ∀ (s : State) (sdi : BitVec 16), s.boot = .ready → s.host.spiLock = false →
    (s.spi.phase = .idle → ∃ t, runEvent (.spi 16 sdi (.fail false)) s = .next t ∧
      t = { s with spi := { s.spi with sdoCmd := t.spi.sdoCmd, sdoData := t.spi.sdoData, exchangeOk := false }, draws := t.draws }) ∧
    runEvent (.spi 16 sdi (.fail true)) s =
      onNext (runEvent (.spi 16 sdi .ok) s) fun t => .next (setExchange false t)

/-- A misaddressed transaction is ignored (R116); what SDO carries is left open (R94). -/
def Obligations.MisaddressedTransactionChangesNothing : Prop :=
  ∀ (i : Instr) (chip : ChipAddr) (s : State), s.spi.phase = .idle → chipField? i = some chip → chip ≠ s.params.chipAddr →
    ∃ t, exec i s = .next t ∧
      t = { s with spi := { s.spi with sdoCmd := t.spi.sdoCmd, sdoData := t.spi.sdoData }, draws := t.draws }

/-- The writes that are ignored entirely (R67, R111): flag registers (R18, R24) and read-only registers (R20, R27, R28). -/
def Obligations.IgnoredWritesChangeNothing : Prop :=
  ∀ (s : State) (chip : ChipAddr) (v : Byte), chip = s.params.chipAddr →
    Completes (.wrInterrupt chip v) s s ∧
    Completes (.wrRxFIFOLvlA chip v) s s ∧
    Completes (.wrRxFIFOLvlB chip v) s s ∧
    Completes (.wrCQErrA chip v) s s ∧
    Completes (.wrCQErrB chip v) s s ∧
    Completes (.wrStatus chip v) s s ∧
    Completes (.wrRevID chip v) s s

/-- Writes of the storage registers without effect (R40). -/
def Obligations.StorageRegistersWrite : Prop :=
  ∀ (s : State) (chip : ChipAddr) (v : Byte), chip = s.params.chipAddr →
    Completes (.wrLEDCtrl chip v) s { s with storage := { s.storage with ledCtrl := v } } ∧
    Completes (.wrTrigger chip v) s { s with storage := { s.storage with trigger := v } } ∧
    Completes (.wrCQCfgA chip v) s { s with storage := { s.storage with cqCfgA := v } } ∧
    Completes (.wrCQCfgB chip v) s { s with storage := { s.storage with cqCfgB := v } } ∧
    Completes (.wrCyclTmrA chip v) s { s with storage := { s.storage with cyclTmrA := v } } ∧
    Completes (.wrCyclTmrB chip v) s { s with storage := { s.storage with cyclTmrB := v } } ∧
    Completes (.wrDeviceDlyA chip v) s { s with storage := { s.storage with deviceDlyA := v } } ∧
    Completes (.wrDeviceDlyB chip v) s { s with storage := { s.storage with deviceDlyB := v } } ∧
    Completes (.wrTrigAssgnA chip v) s { s with storage := { s.storage with trigAssgnA := v } } ∧
    Completes (.wrTrigAssgnB chip v) s { s with storage := { s.storage with trigAssgnB := v } } ∧
    Completes (.wrLCnfgA chip v) s { s with storage := { s.storage with lCnfgA := v } } ∧
    Completes (.wrLCnfgB chip v) s { s with storage := { s.storage with lCnfgB := v } } ∧
    Completes (.wrIOStCfgA chip v) s { s with storage := { s.storage with ioStCfgA := v } } ∧
    Completes (.wrIOStCfgB chip v) s { s with storage := { s.storage with ioStCfgB := v } } ∧
    Completes (.wrDrvrCurrLim chip v) s { s with storage := { s.storage with drvrCurrLim := v } } ∧
    Completes (.wrClock chip v) s { s with storage := { s.storage with clock := v } }

/-- Reads of the storage registers without effect (R40). -/
def Obligations.StorageRegistersRead : Prop :=
  ∀ (s : State) (chip : ChipAddr) (d : Byte), chip = s.params.chipAddr →
    Answers (.rdLEDCtrl chip d) s s.storage.ledCtrl s ∧
    Answers (.rdTrigger chip d) s s.storage.trigger s ∧
    Answers (.rdCQCfgA chip d) s s.storage.cqCfgA s ∧
    Answers (.rdCQCfgB chip d) s s.storage.cqCfgB s ∧
    Answers (.rdCyclTmrA chip d) s s.storage.cyclTmrA s ∧
    Answers (.rdCyclTmrB chip d) s s.storage.cyclTmrB s ∧
    Answers (.rdDeviceDlyA chip d) s s.storage.deviceDlyA s ∧
    Answers (.rdDeviceDlyB chip d) s s.storage.deviceDlyB s ∧
    Answers (.rdTrigAssgnA chip d) s s.storage.trigAssgnA s ∧
    Answers (.rdTrigAssgnB chip d) s s.storage.trigAssgnB s ∧
    Answers (.rdLCnfgA chip d) s s.storage.lCnfgA s ∧
    Answers (.rdLCnfgB chip d) s s.storage.lCnfgB s ∧
    Answers (.rdIOStCfgA chip d) s s.storage.ioStCfgA s ∧
    Answers (.rdIOStCfgB chip d) s s.storage.ioStCfgB s ∧
    Answers (.rdDrvrCurrLim chip d) s s.storage.drvrCurrLim s ∧
    Answers (.rdClock chip d) s s.storage.clock s

/-- InterruptEn (R19): stored, and its only effect is on IRQ_n. -/
def Obligations.InterruptEnableMasksOnlyTheOutput : Prop :=
  ∀ (s : State) (chip : ChipAddr) (v : Byte), chip = s.params.chipAddr →
    Completes (.wrInterruptEn chip v) s { s with interruptEn := v } ∧
    Answers (.rdInterruptEn chip v) s s.interruptEn s ∧
    (s.irqN = false ↔ ∃ k, s.irqFlags.getLsbD k = true ∧ s.interruptEn.getLsbD k = true)

/-- Clear on read of the Interrupt register (R18). -/
def Obligations.InterruptReadReturnsAndClears : Prop :=
  ∀ (s : State) (chip : ChipAddr) (d : Byte), chip = s.params.chipAddr →
    Answers (.rdInterrupt chip d) s s.irqFlags { s with irqFlags := 0x00 }

/-- Clear on read of CQErrX (R24). -/
def Obligations.CqErrReadReturnsAndClears : Prop :=
  ∀ (s : State) (chip : ChipAddr) (d : Byte), chip = s.params.chipAddr →
    Answers (.rdCQErrA chip d) s s.chA.cqerr { s with chA := { s.chA with cqerr := 0x00 } } ∧
    Answers (.rdCQErrB chip d) s s.chB.cqerr { s with chB := { s.chB with cqerr := 0x00 } }

/-- The level register (R20); that a FIFO holds at most 64 bytes is part of the invariant of O48 (R36 (i)). -/
def Obligations.LevelReadAnswersTheFifoLength : Prop :=
  ∀ (s : State) (x : Chan) (chip : ChipAddr) (d : Byte), chip = s.params.chipAddr → (s.chan x).rxfifo.length ≤ 64 →
    ∃ b : Byte, Answers (pairRow x (.rdRxFIFOLvlA chip d) (.rdRxFIFOLvlB chip d)) s b s ∧
      b.toNat = (s.chan x).rxfifo.length ∧ b.toNat ≤ 64 ∧ b.getLsbD 7 = false

/-- Reads of CQCtrlX (R22). -/
def Obligations.CqCtrlReadAnswersTheStoredBits : Prop :=
  ∀ (s : State) (x : Chan) (chip : ChipAddr) (d : Byte), chip = s.params.chipAddr →
    Answers (pairRow x (.rdCQCtrlA chip d) (.rdCQCtrlB chip d)) s (s.chan x).cqctrl s ∧
    ((s.chan x).Inv → wuPuls (s.chan x).cqctrl = false ∧ txFifoRst (s.chan x).cqctrl = false ∧
      rxFifoRst (s.chan x).cqctrl = false ∧ cqSendBit (s.chan x).cqctrl = false)

/-- A write of CQCtrlX without CQSend (R22; R164, R165, R145). -/
def Obligations.CqCtrlWriteWithoutSend : Prop :=
  ∀ (s : State) (x : Chan) (chip : ChipAddr) (v : Byte), chip = s.params.chipAddr → v.getLsbD 0 = false →
    Completes (pairRow x (.wrCQCtrlA chip v) (.wrCQCtrlB chip v)) s
      { s.setChan x { s.chan x with
          cqctrl := v &&& 0xE2,
          rxfifo := if v.getLsbD 2 then [] else (s.chan x).rxfifo,
          rxmsg := if v.getLsbD 2 then [] else (s.chan x).rxmsg,
          xfer := if v.getLsbD 2 then .xIdle else (s.chan x).xfer,
          txfifo := if v.getLsbD 3 then [] else (s.chan x).txfifo } with
        out := if v.getLsbD 4 then s.out ++ [.wakePulse x] else s.out }

/-- CQSend of a loaded message (R166) after the other triggers of the write (R22), with InsChks (R167) and TxKeepMsg (R168). -/
def Obligations.CqSendSendsTheMessage : Prop :=
  ∀ (s : State) (x : Chan) (chip : ChipAddr) (v : Byte), chip = s.params.chipAddr →
    v.getLsbD 0 = true → v.getLsbD 3 = false → (s.chan x).framerEn = true →
    v.getLsbD 2 = true ∨ (s.chan x).xfer = .xIdle → (s.chan x).txfifo ≠ [] → (s.chan x).msgCtrl.getLsbD 6 = false →
    Completes (pairRow x (.wrCQCtrlA chip v) (.wrCQCtrlB chip v)) s
      { (s.afterTriggers x v).setChan x { (s.afterTriggers x v).chan x with
          rxmsg := [], xfer := .xAwait,
          txfifo := if (s.chan x).msgCtrl.getLsbD 3 then (s.chan x).txfifo else [] } with
        out := (s.afterTriggers x v).out ++ [.lineTx x (if (s.chan x).msgCtrl.getLsbD 5 then Config.cksInsert (s.chan x).txfifo
          else (s.chan x).txfifo)] }

/-- The transmit check and TxErDestroy (R166, R167, R169) after the other triggers of the write (R22), for every value of the open check. -/
def Obligations.CqSendUnderTheTransmitCheck : Prop :=
  ∀ (s : State) (x : Chan) (chip : ChipAddr) (v : Byte) (ok : Bool), chip = s.params.chipAddr →
    v.getLsbD 0 = true → v.getLsbD 3 = false → (s.chan x).framerEn = true →
    v.getLsbD 2 = true ∨ (s.chan x).xfer = .xIdle → (s.chan x).txfifo ≠ [] → (s.chan x).msgCtrl.getLsbD 6 = true →
    Config.cksOk .tx (s.chan x).txfifo = ok →
    Completes (pairRow x (.wrCQCtrlA chip v) (.wrCQCtrlB chip v)) s
      (if ok = false ∧ (s.chan x).msgCtrl.getLsbD 7 = true then
        { (s.afterTriggers x v).setChan x { (s.afterTriggers x v).chan x with
            cqerr := (s.chan x).cqerr ||| 0x20, txfifo := [] } with
          irqFlags := s.irqFlags ||| txErrorMask x }
      else
        { (s.afterTriggers x v).setChan x { (s.afterTriggers x v).chan x with
            cqerr := (s.chan x).cqerr ||| (if ok then 0x00 else 0x20), rxmsg := [], xfer := .xAwait,
            txfifo := if (s.chan x).msgCtrl.getLsbD 3 then (s.chan x).txfifo else [] } with
          irqFlags := s.irqFlags ||| (if ok then 0x00 else txErrorMask x),
          out := (s.afterTriggers x v).out ++ [.lineTx x (if (s.chan x).msgCtrl.getLsbD 5 then
            Config.cksInsert (s.chan x).txfifo else (s.chan x).txfifo)] })

/-- CQSend where it does not send (R166), after the other triggers of the write (R22, R278). -/
def Obligations.CqSendIgnoredEmptyOrInFlight : Prop :=
  ∀ (s : State) (x : Chan) (chip : ChipAddr) (v : Byte), chip = s.params.chipAddr → v.getLsbD 0 = true →
    ((s.chan x).framerEn = false →
      Completes (pairRow x (.wrCQCtrlA chip v) (.wrCQCtrlB chip v)) s (s.afterTriggers x v)) ∧
    ((s.chan x).framerEn = true → v.getLsbD 2 = true ∨ (s.chan x).xfer = .xIdle →
      v.getLsbD 3 = true ∨ (s.chan x).txfifo = [] →
      Completes (pairRow x (.wrCQCtrlA chip v) (.wrCQCtrlB chip v)) s
        { (s.afterTriggers x v).setChan x { (s.afterTriggers x v).chan x with
            cqerr := (s.chan x).cqerr ||| 0x10 } with
          irqFlags := s.irqFlags ||| txErrorMask x }) ∧
    ((s.chan x).framerEn = true → v.getLsbD 2 = false → (s.chan x).xfer = .xAwait →
      exec (pairRow x (.wrCQCtrlA chip v) (.wrCQCtrlB chip v)) s = .refused .secondTransfer)

/-- MsgCtrlX (R25). -/
def Obligations.MsgCtrlStoresItsOptions : Prop :=
  ∀ (s : State) (x : Chan) (chip : ChipAddr) (v : Byte), chip = s.params.chipAddr →
    Completes (pairRow x (.wrMsgCtrlA chip v) (.wrMsgCtrlB chip v)) s (s.setChan x { s.chan x with msgCtrl := v }) ∧
    Answers (pairRow x (.rdMsgCtrlA chip v) (.rdMsgCtrlB chip v)) s (s.chan x).msgCtrl s

/-- ChanStatX without Rst (R26). -/
def Obligations.ChanStatStoresFramerEnable : Prop :=
  ∀ (s : State) (x : Chan) (chip : ChipAddr) (v : Byte), chip = s.params.chipAddr →
    (v.getLsbD 7 = false →
      Completes (pairRow x (.wrChanStatA chip v) (.wrChanStatB chip v)) s
        (s.setChan x { s.chan x with framerEn := v.getLsbD 6 })) ∧
    ∃ b : Byte, Answers (pairRow x (.rdChanStatA chip v) (.rdChanStatB chip v)) s b s ∧
      b.getLsbD 7 = false ∧ b.getLsbD 6 = (s.chan x).framerEn ∧
      b.extractLsb' 0 6 = s.env.chanFault x

/-- The register reset (R262): chip-wide, from either channel's register; what survives is R263. -/
def Obligations.RstResetsTheWholeBlock : Prop :=
  ∀ (s : State) (x : Chan) (chip : ChipAddr) (v : Byte), chip = s.params.chipAddr → v.getLsbD 7 = true →
    ∃ t, exec (pairRow x (.wrChanStatA chip v) (.wrChanStatB chip v)) s = .next t ∧
      (∀ y, (t.chan y).AtReset false) ∧
      AgreesOffPort t { s with
        chA := t.chA, chB := t.chB, irqFlags := 0x00, interruptEn := 0x00, storage := s.params.resetValue }

/-- TxPush (R161). -/
def Obligations.TxRxDataWritePushes : Prop :=
  ∀ (s : State) (x : Chan) (chip : ChipAddr) (v : Byte), chip = s.params.chipAddr →
    ((s.chan x).txfifo.length < 64 →
      Completes (pairRow x (.wrTxRxDataA chip v) (.wrTxRxDataB chip v)) s
        (s.setChan x { s.chan x with txfifo := (s.chan x).txfifo ++ [v] })) ∧
    (64 ≤ (s.chan x).txfifo.length →
      Completes (pairRow x (.wrTxRxDataA chip v) (.wrTxRxDataB chip v)) s
        { s.setChan x { s.chan x with cqerr := (s.chan x).cqerr ||| 0x10 } with
          irqFlags := s.irqFlags ||| (match x with | .a => 0x10 | .b => 0x20) })

/-- RxPop (R162). -/
def Obligations.TxRxDataReadPops : Prop :=
  ∀ (s : State) (x : Chan) (chip : ChipAddr) (d : Byte), chip = s.params.chipAddr →
    (∀ b rest, (s.chan x).rxfifo = b :: rest →
      Answers (pairRow x (.rdTxRxDataA chip d) (.rdTxRxDataB chip d)) s b
        (s.setChan x { s.chan x with rxfifo := rest })) ∧
    ((s.chan x).rxfifo = [] → Completes (pairRow x (.rdTxRxDataA chip d) (.rdTxRxDataB chip d)) s s)

/-- Reads of Status (R27) and RevID (R28). -/
def Obligations.StatusAndRevIdReads : Prop :=
  ∀ (s : State) (chip : ChipAddr) (d : Byte), chip = s.params.chipAddr →
    Answers (.rdStatus chip d) s s.env.statusIn s ∧ Answers (.rdRevID chip d) s s.params.revId s

/-- The write-then-read law of R68, over the generic rows WR and RD. -/
def Obligations.WriteThenReadLaw : Prop :=
  ∀ (s : State) (chip : ChipAddr) (a : RegAddr) (v d : Byte), chip = s.params.chipAddr →
    (a = 0x03 ∨ a = 0x0A ∨ a = 0x0B ∨ (0x0E ≤ a ∧ a ≤ 0x1D) →
      ∃ t u, exec (.wr chip a v) s = .next t ∧ exec (.rd chip a d) t = .next u ∧ u.spi.sdoData = v) ∧
    (a = 0x06 ∨ a = 0x07 → v &&& 0x1D = 0 →
      ∃ t u, exec (.wr chip a v) s = .next t ∧ exec (.rd chip a d) t = .next u ∧ u.spi.sdoData = v &&& 0xE2) ∧
    (∀ x, a = pairAddr 0x0C x → v.getLsbD 7 = false →
      ∃ t u, exec (.wr chip a v) s = .next t ∧ exec (.rd chip a d) t = .next u ∧
        u.spi.sdoData = chanStatByte (v.getLsbD 6) (s.env.chanFault x))

/-- Every arm of the register dispatch is total (R111, R112), but for a second transfer in flight (R166). -/
def Obligations.GenericTransactionsComplete : Prop :=
  ∀ (s : State) (chip : ChipAddr) (a : RegAddr) (v : Byte), chip = s.params.chipAddr →
    (∃ t, exec (.rd chip a v) s = .next t ∧ t.params = s.params ∧ t.env = s.env ∧ t.host = s.host ∧ t.agenda = s.agenda) ∧
    ((∀ x, a = pairAddr 0x06 x → v.getLsbD 0 = true → v.getLsbD 2 = false →
        (s.chan x).framerEn = true → (s.chan x).xfer ≠ .xAwait) →
      ∃ t, exec (.wr chip a v) s = .next t ∧ t.params = s.params ∧ t.env = s.env ∧ t.host = s.host ∧ t.agenda = s.agenda) ∧
    (∀ x, a = pairAddr 0x06 x → v.getLsbD 0 = true → v.getLsbD 2 = false →
        (s.chan x).framerEn = true → (s.chan x).xfer = .xAwait →
      exec (.wr chip a v) s = .refused .secondTransfer)

/-- SetModeIdle (R133). -/
def Obligations.ModeRequestInIdle : Prop :=
  ∀ (s : State) (x : Chan), (s.chan x).wuState = .idle →
    exec (.setmodeInactive x) s = .next (s.setChan x { s.chan x with mode := .inactive }) ∧
    ((s.chan x).mode = .inactive → exec (.setmodeInactive x) s = .next s) ∧ (s.Inv → (s.chan x).mode = .inactive) ∧
    ∀ m, m ≠ .inactive → exec (modeRow m x) s = .next (s.setChan x { s.chan x with
      mode := m, wuPulses := 0, wuTimer := 0, framerEn := true, wuState := .pulsing })

/-- SetModeEstablished and GoIdle (R134, R137). -/
def Obligations.ModeRequestInEstablished : Prop :=
  ∀ (s : State) (x : Chan), (s.chan x).wuState = .established →
    (∀ m, m ≠ .inactive → exec (modeRow m x) s = .next (s.setChan x { s.chan x with mode := m })) ∧
    ((s.chan x).mode ≠ .inactive → exec (modeRow (s.chan x).mode x) s = .next s) ∧
    exec (.setmodeInactive x) s = .next (s.setChan x { s.chan x with
      wuState := .idle, wuPulses := 0, wuTimer := 0, wuRestart := false, mode := .inactive, framerEn := false })

/-- SetModeQueued (R135); the replay is O40. -/
def Obligations.ModeRequestWhileRunningIsQueued : Prop :=
  ∀ (s : State) (x : Chan) (m : Mode), (s.chan x).wuState = .pulsing ∨ (s.chan x).wuState = .awaitingResponse →
    exec (modeRow m x) s = .next (s.setChan x { s.chan x with wuRestart := true, wuReqMode := m })

/-- SetModeFailed (R136). -/
def Obligations.ModeRequestInFailed : Prop :=
  ∀ (s : State) (x : Chan), (s.chan x).wuState = .failed →
    (∀ m, m ≠ .inactive → exec (modeRow m x) s = .next (s.setChan x { s.chan x with
      mode := m, wuPulses := 0, wuTimer := 0, framerEn := true, wuState := .pulsing })) ∧
    exec (.setmodeInactive x) s = .next (s.setChan x { s.chan x with
      wuState := .idle, wuPulses := 0, wuTimer := 0, wuRestart := false, mode := .inactive, framerEn := false })

/-- SETMODE by code (R96, R131); 0b11 is reserved (R97 (f)). -/
def Obligations.ModeRequestByCode : Prop :=
  ∀ (s : State) (x : Chan),
    (∀ m, ∃ t, exec (.setmode x (modeCode m)) s = .next t ∧ exec (modeRow m x) s = .next t ∧
      t = s.setChan x (t.chan x)) ∧
    exec (.setmode x 0b11) s = .refused .reservedMode ∧ exec (.setmodeReserved x) s = .refused .reservedMode

/-- PULSE (R138). -/
def Obligations.PulseStepsTheSequence : Prop :=
  ∀ (s : State) (x : Chan),
    ((s.chan x).wuState = .pulsing → (s.chan x).wuPulses < 5 →
      runEvent (.pulse x) s = .next { s.setChan x { s.chan x with
          wuPulses := (s.chan x).wuPulses + 1,
          wuTimer := if (s.chan x).wuPulses < 2 then 10 else 20,
          wuState := .awaitingResponse } with
        out := s.out ++ [.wakePulse x] }) ∧
    ((s.chan x).wuState ≠ .pulsing → stops (runEvent (.pulse x) s))

/-- Detection (R139, R140, R147); detection wins over expiry (R236 (a)). -/
def Obligations.TickDetectsTheAnswer : Prop :=
  ∀ (s : State) (x : Chan), (s.chan x).wuState = .awaitingResponse → (s.chan x).wuRestart = false →
    (s.chan x.other).wuState ≠ .awaitingResponse → s.irqFlags.getLsbD 6 = true →
    runEvent .tick s = .next { s.setChan x { s.chan x with
        comSpeed := (s.chan x).cqctrl.extractLsb' 6 2,
        comBaud := rateBaudOf s.params.rateBaud ((s.chan x).cqctrl.extractLsb' 6 2),
        comValid := true, wuTimer := 0, wuState := .established } with
      irqFlags := s.irqFlags &&& 0xBF,
      out := s.out ++ [.established x ((s.chan x).cqctrl.extractLsb' 6 2)
        (rateBaudOf s.params.rateBaud ((s.chan x).cqctrl.extractLsb' 6 2))],
      host := s.host.tick, boot := s.boot.tick }

/-- Counting and expiry (R139, R141) on one channel or both, a queued request waiting or not (R135). -/
def Obligations.TickCountsAndExpires : Prop :=
  ∀ s : State, s.irqFlags.getLsbD 6 = false →
    (∀ x, (s.chan x).wuState = .awaitingResponse → 1 ≤ (s.chan x).wuTimer) →
    ∃ t, runEvent .tick s = .next t ∧
      (∀ x, (s.chan x).wuState ≠ .awaitingResponse → t.chan x = s.chan x) ∧
      (∀ x, (s.chan x).wuState = .awaitingResponse →
        (2 ≤ (s.chan x).wuTimer → t.chan x = { s.chan x with wuTimer := (s.chan x).wuTimer - 1 }) ∧
        ((s.chan x).wuTimer = 1 → (s.chan x).wuPulses < 5 →
          t.chan x = { s.chan x with wuTimer := 0, wuState := .pulsing }) ∧
        ((s.chan x).wuTimer = 1 → 5 ≤ (s.chan x).wuPulses → (s.chan x).wuRestart = false →
          t.chan x = { s.chan x with wuTimer := 0, wuState := .failed })) ∧
      t = { s with chA := t.chA, chB := t.chB, out := s.out ++ s.timeoutsDue .a ++ s.timeoutsDue .b,
                   host := s.host.tick, boot := s.boot.tick }

/-- Replay (R142), after detection (R140, R147) and after failure (R141). -/
def Obligations.QueuedRequestIsReplayed : Prop :=
  ∀ (s : State) (x : Chan) (m : Mode), (s.chan x).wuState = .awaitingResponse → (s.chan x).wuRestart = true →
    (s.chan x).wuReqMode = m → (s.chan x.other).wuState ≠ .awaitingResponse →
    (s.irqFlags.getLsbD 6 = true →
      ∃ c, runEvent .tick s = .next { s.setChan x c with
          irqFlags := s.irqFlags &&& 0xBF,
          out := s.out ++ [.established x ((s.chan x).cqctrl.extractLsb' 6 2)
            (rateBaudOf s.params.rateBaud ((s.chan x).cqctrl.extractLsb' 6 2))],
          host := s.host.tick, boot := s.boot.tick } ∧
        (m = .inactive → c = { s.chan x with
          comSpeed := (s.chan x).cqctrl.extractLsb' 6 2,
          comBaud := rateBaudOf s.params.rateBaud ((s.chan x).cqctrl.extractLsb' 6 2), comValid := true,
          wuTimer := 0, wuPulses := 0, wuRestart := false, mode := .inactive, framerEn := false, wuState := .idle }) ∧
        (m ≠ .inactive → c = { s.chan x with
          comSpeed := (s.chan x).cqctrl.extractLsb' 6 2,
          comBaud := rateBaudOf s.params.rateBaud ((s.chan x).cqctrl.extractLsb' 6 2), comValid := true,
          wuTimer := 0, wuRestart := false, mode := m, wuState := .established })) ∧
    (s.irqFlags.getLsbD 6 = false → (s.chan x).wuTimer = 1 → 5 ≤ (s.chan x).wuPulses →
      ∃ c, runEvent .tick s = .next { s.setChan x c with
          out := s.out ++ [.wakeUpTimeout x], host := s.host.tick, boot := s.boot.tick } ∧
        (m = .inactive → c = { s.chan x with
          wuTimer := 0, wuPulses := 0, wuRestart := false, mode := .inactive, framerEn := false, wuState := .idle }) ∧
        (m ≠ .inactive → c = { s.chan x with
          wuTimer := 0, wuPulses := 0, wuRestart := false, mode := m, framerEn := true, wuState := .pulsing }))

/-- The shared flag (R236 (b), R272). -/
def Obligations.ChannelATakesTheSharedFlag : Prop :=
  ∀ s : State, s.chA.wuState = .awaitingResponse → s.chB.wuState = .awaitingResponse → s.chA.wuRestart = false →
    s.irqFlags.getLsbD 6 = true → 1 ≤ s.chB.wuTimer →
    ∃ t, runEvent .tick s = .next t ∧
      (2 ≤ s.chB.wuTimer → t.chB = { s.chB with wuTimer := s.chB.wuTimer - 1 }) ∧
      (s.chB.wuTimer = 1 → s.chB.wuPulses < 5 → t.chB = { s.chB with wuTimer := 0, wuState := .pulsing }) ∧
      (s.chB.wuTimer = 1 → 5 ≤ s.chB.wuPulses → s.chB.wuRestart = false →
        t.chB = { s.chB with wuTimer := 0, wuState := .failed }) ∧
      t = { s with
        chA := { s.chA with
          comSpeed := s.chA.cqctrl.extractLsb' 6 2,
          comBaud := rateBaudOf s.params.rateBaud (s.chA.cqctrl.extractLsb' 6 2),
          comValid := true, wuTimer := 0, wuState := .established },
        chB := t.chB, irqFlags := s.irqFlags &&& 0xBF,
        out := s.out ++ [.established .a (s.chA.cqctrl.extractLsb' 6 2)
          (rateBaudOf s.params.rateBaud (s.chA.cqctrl.extractLsb' 6 2))] ++ s.timeoutsDue .b,
        host := s.host.tick, boot := s.boot.tick }

/-- The retry policy in time (R141): 5 pulses, windows 10, 10, 20, 20, 20, failure at 80 ms. A step is a Tick or a PULSE, so k windows of n ticks take n + k steps. The agenda of Ticks is the model's own (notes/assumptions/3.md), and so is that a due PULSE goes first by itself (notes/assumptions/4.md). -/
def Obligations.WakeUpFailsAfterFivePulsesAndEightyTicks : Prop :=
  ∀ (s : State) (x : Chan), (s.chan x).wuState = .pulsing → (s.chan x).wuPulses = 0 → (s.chan x).wuRestart = false →
    (s.chan x.other).wuState ≠ .pulsing → (s.chan x.other).wuState ≠ .awaitingResponse →
    s.irqFlags.getLsbD 6 = false → s.agenda = List.replicate 80 .tick →
    (∃ t, Host.Core.run Sys2Proof.core 11 s = .next t ∧ (t.chan x).wuState = .pulsing ∧ (t.chan x).wuPulses = 1 ∧
      t.agenda = List.replicate 70 .tick) ∧
    (∃ t, Host.Core.run Sys2Proof.core 22 s = .next t ∧ (t.chan x).wuState = .pulsing ∧ (t.chan x).wuPulses = 2 ∧
      t.agenda = List.replicate 60 .tick) ∧
    (∃ t, Host.Core.run Sys2Proof.core 43 s = .next t ∧ (t.chan x).wuState = .pulsing ∧ (t.chan x).wuPulses = 3 ∧
      t.agenda = List.replicate 40 .tick) ∧
    (∃ t, Host.Core.run Sys2Proof.core 64 s = .next t ∧ (t.chan x).wuState = .pulsing ∧ (t.chan x).wuPulses = 4 ∧
      t.agenda = List.replicate 20 .tick) ∧
    (∃ t, Host.Core.run Sys2Proof.core 85 s = .next t ∧ (t.chan x).wuState = .failed ∧ (t.chan x).wuPulses = 5 ∧
      t.agenda = [] ∧ t.out = s.out ++ List.replicate 5 (.wakePulse x) ++ [.wakeUpTimeout x])

/-- LineRxChar (R176). -/
def Obligations.ReceivedCharacterIsStoredAndJudged : Prop :=
  ∀ (s : State) (x : Chan) (b : Byte) (p f : Bool),
    ((s.chan x).framerEn = false → runEvent (.lineRxChar x b p f) s = .next s) ∧
    ((s.chan x).framerEn = true → runEvent (.lineRxChar x b p f) s = .next { s.setChan x { s.chan x with
        rxmsg := (s.chan x).rxmsg ++ [b],
        rxfifo := if (s.chan x).rxfifo.length < 64 then (s.chan x).rxfifo ++ [b] else (s.chan x).rxfifo,
        cqerr := (s.chan x).cqerr ||| (if p then 0x00 else 0x01) ||| (if f then 0x00 else 0x02) |||
          (if (s.chan x).rxfifo.length < 64 then 0x00 else 0x04) } with
      irqFlags := s.irqFlags |||
        (if p = true ∧ f = true ∧ (s.chan x).rxfifo.length < 64 then 0x00
         else match x with | .a => 0x04 | .b => 0x08) })

/-- LineRxEnd (R177) and LineNoReply (R178). -/
def Obligations.ReplyEndAndNoReply : Prop :=
  ∀ (s : State) (x : Chan),
    ((s.chan x).framerEn = true → (s.chan x).xfer = .xAwait →
      runEvent (.lineNoReply x) s = .next { s.setChan x { s.chan x with
          cqerr := (s.chan x).cqerr ||| 0x80, xfer := .xIdle } with
        irqFlags := s.irqFlags ||| (match x with | .a => 0x10 | .b => 0x20) } ∧
      runEvent (.lineRxEnd x) s = .next { s.setChan x { s.chan x with
          cqerr := (s.chan x).cqerr |||
            (if (s.chan x).msgCtrl.getLsbD 2 = true ∧ Config.cksOk .rx (s.chan x).rxmsg = false then 0x08 else 0x00),
          xfer := .xIdle } with
        irqFlags := s.irqFlags ||| (match x with | .a => 0x01 | .b => 0x02) |||
          (if (s.chan x).msgCtrl.getLsbD 2 = true ∧ Config.cksOk .rx (s.chan x).rxmsg = false then
            (match x with | .a => 0x04 | .b => 0x08) else 0x00) }) ∧
    ((s.chan x).framerEn = false ∨ (s.chan x).xfer = .xIdle →
      runEvent (.lineRxEnd x) s = .next s ∧ runEvent (.lineNoReply x) s = .next s)

/-- CycleErr (R179), StatusEvent (R180), LineWurq (R146). -/
def Obligations.OtherLineEvents : Prop :=
  ∀ (s : State) (x : Chan) (v : Byte) (fA fB : BitVec 6),
    runEvent (.cycleErr x) s = .next { s.setChan x { s.chan x with cqerr := (s.chan x).cqerr ||| 0x40 } with
      irqFlags := s.irqFlags ||| (match x with | .a => 0x10 | .b => 0x20) } ∧
    runEvent (.statusEvent v fA fB) s = .next { s with
      env := { statusIn := v, chanFaultA := fA, chanFaultB := fB }, irqFlags := s.irqFlags ||| 0x80 } ∧
    runEvent (.lineWurq x) s = .next { s with irqFlags := s.irqFlags ||| 0x40 }

/-- Power-on reset (R45, R261), the values the spec gives. -/
def Obligations.ResetState : Prop :=
  (∀ x, (State.reset.chan x).AtReset false) ∧
    State.reset.irqFlags = 0x00 ∧ State.reset.interruptEn = 0x00 ∧ State.reset.irqN = true ∧
    State.reset.storage = State.reset.params.resetValue ∧ State.reset.spi.phase = .idle ∧ State.reset.out = []

/-- The invariants of O48 and O49 hold at reset. -/
def Obligations.ResetMeetsTheInvariant : Prop :=
  State.reset.Inv ∧ State.reset.HostBounded

/-- R36 is inductive over every event of the machine. -/
def Obligations.EveryStepKeepsTheInvariant : Prop :=
  ∀ s t : State, s.Inv → step s = .next t → t.Inv

/-- The bounds of a transfer (R208, R209) over every event. -/
def Obligations.HostTransfersStayInBounds : Prop :=
  ∀ s t : State, s.HostBounded → step s = .next t → t.HostBounded

/-- The parameters survive everything (R263) and `out` is append-only (R33); power-on starts it empty (R261). -/
def Obligations.ParametersAndTraceAreKept : Prop :=
  ∀ s t : State, step s = .next t → t.params = s.params ∧
    (s.agenda.head? ≠ some .powerOnReset → ∃ es, t.out = s.out ++ es)

/-- Channel independence (R151, R12). -/
def Obligations.ChannelsAreIndependent : Prop :=
  ∀ (s t : State) (x : Chan),
    (∀ e, eventChan? e = some x → runEvent e s = .next t → t.chan x.other = s.chan x.other) ∧
    (∀ r chip v, pairChan? r = some x → ¬(r = .chanStat x ∧ v.getLsbD 7 = true) →
      exec (writeInstr r chip v) s = .next t → t.chan x.other = s.chan x.other) ∧
    (∀ r chip v, pairChan? r = some x → exec (readInstr r chip v) s = .next t → t.chan x.other = s.chan x.other) ∧
    ((s.chan x.other).wuState ≠ .awaitingResponse → runEvent .tick s = .next t → t.chan x.other = s.chan x.other)

/-- writeRegister (R201) and readRegister (R202). -/
def Obligations.RegisterAccessOutcomes : Prop :=
  ∀ (s : State) (caller : Nat) (a : RegAddr) (v : Byte), s.boot = .ready → s.host.spiLock = false →
    (s.host.task (.chip caller) = some { task := .read a, wait := 0 } →
      (∃ t u, runEvent (.spi 16 (spiWord 1#1 s.params.chipAddr a 0x00) .ok) s = .next u ∧
        runEvent (.hostStep (.chip caller) .ok) s = .next t ∧
        t = finish (.chip caller) (.byte u.spi.sdoData) u) ∧
      ∀ p, ∃ t u, runEvent (.spi 16 (spiWord 1#1 s.params.chipAddr a 0x00) (.fail p)) s = .next u ∧
        runEvent (.hostStep (.chip caller) (.fail p)) s = .next t ∧ t = finish (.chip caller) .busError u) ∧
    (s.host.task (.chip caller) = some { task := .writes [(a, v)], wait := 0 } →
      (∀ u, runEvent (.spi 16 (spiWord 0#1 s.params.chipAddr a v) .ok) s = .next u →
        runEvent (.hostStep (.chip caller) .ok) s = .next (finish (.chip caller) .ok u)) ∧
      ∀ p u, runEvent (.spi 16 (spiWord 0#1 s.params.chipAddr a v) (.fail p)) s = .next u →
        runEvent (.hostStep (.chip caller) (.fail p)) s = .next (finish (.chip caller) .busError u))

/-- The checks of sendIOLData (R208), in their order (R236 (f)), and the start of the transfer, the read of CQCtrlX of its first SETBITS (R209, R203). That the transfer goes on with n bytes where outBytes is shorter than n is the model's choice (notes/assumptions/15.md). -/
def Obligations.SendChecksComeBeforeAnyTransaction : Prop :=
  ∀ (s : State) (caller : Nat) (x : Chan) (bytes : List Byte) (n e : Nat), s.host.task (.chan x) = none →
    ((s.chan x).wuState ≠ .established →
      runEvent (.hostCall caller (.sendIOLData x bytes n e)) s = .next (finish (.chan x) .notEstablished s)) ∧
    ((s.chan x).wuState = .established → 64 < n ∨ 64 < e →
      runEvent (.hostCall caller (.sendIOLData x bytes n e)) s = .next (finish (.chan x) .invalidLength s)) ∧
    ((s.chan x).wuState = .established → n ≤ 64 → e ≤ 64 →
      ∃ t c load, runEvent (.hostCall caller (.sendIOLData x bytes n e)) s = .next t ∧ load.length = n ∧
        (n ≤ bytes.length → load = bytes.take n) ∧
        c = { x := x, expected := e, got := [], elapsed := 0 } ∧
        t = { s with host := s.host.setTask (.chan x) (some { task := .sendClearRead c load, wait := 0 }),
                     draws := t.draws })

/-- The result of a transfer (R210) and fault decoding (R232). -/
def Obligations.TransferResultDecodesTheFlags : Prop :=
  ∀ (e : Byte) (got expected : Nat),
    ((transferResult e got expected).success = true ↔ e = 0x00 ∧ got = expected) ∧
    (∀ k, k ∈ (transferResult e got expected).errorFlags ↔ e.getLsbD (match k with
      | .transmission => 7 | .cycle => 6 | .txChecksum => 5 | .txSize => 4
      | .rxChecksum => 3 | .rxSize => 2 | .frame => 1 | .parity => 0) = true) ∧
    ∀ k : CqErrFlag, errorFlagsOf k.mask = [k]

/-- reset() (R204). -/
def Obligations.HostResetEndsInResetWithFramersEnabled : Prop :=
  ∀ (s : State) (caller : Nat), s.boot = .ready → s.host.spiLock = false →
    s.host.task (.chip caller) = some { task := .writes resetWrites, wait := 0 } →
    s.agenda = List.replicate 4 (.hostStep (.chip caller) .ok) →
    ∃ t, Host.Core.run Sys2Proof.core 4 s = .next t ∧
      (∀ x, (t.chan x).AtReset true) ∧
      t.irqFlags = 0x00 ∧ t.interruptEn = 0x00 ∧ t.storage = s.params.resetValue ∧ t.out = s.out ∧ t.env = s.env ∧
      t.host.task (.chip caller) = none ∧ t.host.returns = s.host.returns ++ [(.chip caller, .ok)]

/-- initPorts (R205) and the start-up sequence (R264), each wait at its full length. That a repeated initPorts does the same, and one that other callers' initPorts surround, is the model's choice (notes/assumptions/25.md, 29.md), and so is which transactions are refused meanwhile (notes/assumptions/28.md). -/
def Obligations.StartUpTakesItsWaits : Prop :=
  ∀ (s : State) (caller : Nat), s.host.spiLock = false →
    s.host.task (.chip caller) = some { task := .initPowerOff, wait := 0 } →
    (∀ x, (s.chan x).wuState ≠ .pulsing ∧ (s.chan x).wuState ≠ .awaitingResponse) →
    s.agenda = .hostStep (.chip caller) .ok :: (List.replicate 1000 .tick ++ .hostStep (.chip caller) .ok ::
      (List.replicate 300 .tick ++ [.hostStep (.chip caller) .ok, .hostStep (.chip caller) .ok])) →
    (∀ n, n < 1000 → ∃ u, Host.Core.run Sys2Proof.core (1 + n) s = .next u ∧ u.boot = .sensorOff ∧
      (∀ st, stops (runEvent (.hostStep (.chip caller) st) u)) ∧
      ∀ clocks sdi st, runEvent (.spi clocks sdi st) u = .refused .beforeBootup) ∧
    (∀ n, n < 300 → ∃ u, Host.Core.run Sys2Proof.core (1002 + n) s = .next u ∧ u.boot = .booting (300 - n) ∧
      (∀ st, stops (runEvent (.hostStep (.chip caller) st) u)) ∧
      ∀ clocks sdi st, runEvent (.spi clocks sdi st) u = .refused .beforeBootup) ∧
    ∃ t, Host.Core.run Sys2Proof.core 1304 s = .next t ∧ t.agenda = [] ∧ t.boot = .ready ∧
      t.storage = { s.storage with clock := s.params.initClock } ∧ t.interruptEn = s.params.initIrqEn ∧
      t.host.portsInit = true ∧ t.host.task (.chip caller) = none ∧
      t.host.returns = s.host.returns ++ [(.chip caller, .ok)]

/-- The read loop of sendIOLData on a complete reply (R209, R210), bytes in FIFO order (R63). -/
def Obligations.ReadyReplyIsReadInOrder : Prop :=
  ∀ (s : State) (x : Chan) (bytes rest : List Byte) (k : Nat), s.boot = .ready → s.host.spiLock = false →
    (s.chan x).rxfifo = bytes ++ rest → (bytes ++ rest).length ≤ 64 →
    s.host.task (.chan x) = some { task := .sendLevel { x := x, expected := bytes.length, got := [], elapsed := k }, wait := 0 } →
    s.agenda = List.replicate (bytes.length + 2) (.hostStep (.chan x) .ok) →
    ∃ t, Host.Core.run Sys2Proof.core (bytes.length + 2) s = .next t ∧ t.agenda = [] ∧
      t.host.returns = s.host.returns ++
        [(.chan x, .transfer bytes (transferResult (s.chan x).cqerr bytes.length bytes.length))] ∧
      (t.chan x).rxfifo = rest ∧ (t.chan x).cqerr = 0x00 ∧ (t.chan x).wuState = (s.chan x).wuState

/-- spi_cmd and spi_phase after a transaction (R14, R116). That a short transaction latches is the model's reading (notes/assumptions/5.md). -/
def Obligations.OwnTransactionLatchesItsCommandByte : Prop :=
  ∀ (s t : State) (w : BitVec 16),
    (fieldChip w = s.params.chipAddr → (∀ x, ¬(w.extractLsb' 15 1 = 0#1 ∧ fieldAddr w = pairAddr 0x0C x ∧ w.getLsbD 7 = true)) →
      exec (decode (.spi16 w)) s = .next t → t.spi.cmd = w.extractLsb' 8 8 ∧ t.spi.phase = .idle) ∧
    (∀ clocks, clocks < 16 → s.boot = .ready → s.host.spiLock = false → runEvent (.spi clocks w .ok) s = .next t →
      t.spi.phase = .idle ∧
      (8 ≤ clocks → fieldChip w = s.params.chipAddr → t.spi.cmd = w.extractLsb' 8 8) ∧
      (clocks < 8 ∨ fieldChip w ≠ s.params.chipAddr → t.spi.cmd = s.spi.cmd))

/-- Power-on reset and the discrete reset line (R260 (a), R261, R263). The start-up phase afterwards is the model's reading (notes/assumptions/6.md). -/
def Obligations.PowerOnResetResetsTheWholeBlock : Prop :=
  ∀ s : State, ∃ t, runEvent .powerOnReset s = .next t ∧ (∀ x, (t.chan x).AtReset false) ∧ t.irqFlags = 0x00 ∧
    t.interruptEn = 0x00 ∧ t.irqN = true ∧ t.storage = s.params.resetValue ∧ t.spi.phase = .idle ∧ t.out = [] ∧
    t.env = s.env ∧ t.params = s.params ∧ t.host = s.host ∧ t.agenda = s.agenda ∧ t.boot = .notStarted

/-- getPort (R206) and SETBITS (R203) among other running sequences (R211). The callers are the model's reading (notes/assumptions/13.md). -/
def Obligations.ChipLevelCallsDoNotWaitForEachOther : Prop :=
  ∀ (s : State) (caller : Nat),
    (∀ x, runEvent (.hostCall caller (.getPort x)) s = .next { s with host := { s.host with
      returns := s.host.returns ++ [(.chip caller, if s.host.portsInit then .handle x else .invalidChannel)] } }) ∧
    ∀ (a : RegAddr) (m : Byte), s.host.task (.chip caller) = none →
      ∃ h, runEvent (.hostCall caller (.setBits a.toNat m)) s = .next { s with host := h } ∧
        h.task (.chip caller) = some { task := .setBitsRead a m, wait := 0 } ∧
        (∀ slot, slot ≠ .chip caller → h.task slot = s.host.task slot) ∧
        h.portsInit = s.host.portsInit ∧ h.spiLock = s.host.spiLock ∧ h.returns = s.host.returns
end

