-- ==== Sys2Proof/Laws/Decode.lean ====
section
/-!
SUPPORT. The fields of a transaction word, the register map as a bijection, and the decoder and encoder row by row.
-/

namespace Sys2Proof

/-! ## Fields of a word -/

/-- The bits of a transaction word: data below 8, address below 13, chip below 15, direction. -/
theorem spiWord_bit (rw : BitVec 1) (chip : ChipAddr) (addr : RegAddr) (data : Byte) (i : Nat) :
    (spiWord rw chip addr data).getLsbD i =
      if i < 8 then data.getLsbD i else if i < 13 then addr.getLsbD (i - 8)
      else if i < 15 then chip.getLsbD (i - 13) else rw.getLsbD (i - 15) := by
  have h : (spiWord rw chip addr data).getLsbD i = (rw ++ chip ++ addr ++ data).getLsbD i := rfl
  rw [h, BitVec.getLsbD_append, BitVec.getLsbD_append, BitVec.getLsbD_append]
  by_cases h8 : i < 8
  · simp [h8]
  by_cases h13 : i < 13
  · simp [h8, h13, show i - 8 < 5 by omega]
  by_cases h15 : i < 15
  · have e : i - 8 - 5 = i - 13 := by omega
    rw [if_neg h8, if_neg (by omega), e, if_pos (by omega), if_neg h8, if_neg h13, if_pos h15]
  · have e : i - 8 - 5 - 2 = i - 15 := by omega
    rw [if_neg h8, if_neg (by omega), if_neg (by omega), e, if_neg h8, if_neg h13, if_neg h15]

@[simp] theorem fieldRw_spiWord (rw : BitVec 1) (chip : ChipAddr) (addr : RegAddr) (data : Byte) :
    fieldRw (spiWord rw chip addr data) = rw := by
  apply BitVec.eq_of_getLsbD_eq
  intro i hi
  interval_cases i
  all_goals simp only [fieldRw, BitVec.getLsbD_extractLsb', spiWord_bit]
  all_goals simp

@[simp] theorem fieldChip_spiWord (rw : BitVec 1) (chip : ChipAddr) (addr : RegAddr) (data : Byte) :
    fieldChip (spiWord rw chip addr data) = chip := by
  apply BitVec.eq_of_getLsbD_eq
  intro i hi
  interval_cases i
  all_goals simp only [fieldChip, BitVec.getLsbD_extractLsb', spiWord_bit]
  all_goals simp

@[simp] theorem fieldAddr_spiWord (rw : BitVec 1) (chip : ChipAddr) (addr : RegAddr) (data : Byte) :
    fieldAddr (spiWord rw chip addr data) = addr := by
  apply BitVec.eq_of_getLsbD_eq
  intro i hi
  interval_cases i
  all_goals simp only [fieldAddr, BitVec.getLsbD_extractLsb', spiWord_bit]
  all_goals simp

@[simp] theorem fieldData_spiWord (rw : BitVec 1) (chip : ChipAddr) (addr : RegAddr) (data : Byte) :
    fieldData (spiWord rw chip addr data) = data := by
  apply BitVec.eq_of_getLsbD_eq
  intro i hi
  interval_cases i
  all_goals simp only [fieldData, BitVec.getLsbD_extractLsb', spiWord_bit]
  all_goals simp

/-- A word is made of its four fields. -/
theorem spiWord_fields (w : BitVec 16) : spiWord (fieldRw w) (fieldChip w) (fieldAddr w) (fieldData w) = w := by
  apply BitVec.eq_of_getLsbD_eq
  intro i hi
  interval_cases i
  all_goals simp only [fieldRw, fieldChip, fieldAddr, fieldData, BitVec.getLsbD_extractLsb', spiWord_bit]
  all_goals simp

/-- The bits a row fixes: direction and address. -/
theorem spiWord_and_mask (rw : BitVec 1) (chip : ChipAddr) (addr : RegAddr) (data : Byte) :
    spiWord rw chip addr data &&& 0x9F00#16 = spiWord rw 0#2 addr 0#8 := by
  apply BitVec.eq_of_getLsbD_eq
  intro i hi
  interval_cases i
  all_goals simp only [BitVec.getLsbD_and, spiWord_bit]
  all_goals simp

/-! ## The register map -/

/-- The register at the address of a register is that register. -/
@[simp] theorem ofAddr_addr (r : Reg) : Reg.ofAddr r.addr = r := by
  rcases r with ⟨x⟩ | _ | _ | ⟨x⟩ | ⟨x⟩ | ⟨x⟩ | ⟨x⟩ | ⟨x⟩ | ⟨r⟩ | _ | _
  all_goals first | rfl | (cases x <;> rfl) | (cases r <;> rfl)

/-- The address of the register at an address is that address: no address is a hole (R60). -/
@[simp] theorem addr_ofAddr (a : RegAddr) : (Reg.ofAddr a).addr = a := by
  revert a
  decide

/-! ## The decoder -/

theorem decodeSpi_write (chip : ChipAddr) (addr : RegAddr) (data : Byte) :
    decodeSpi (spiWord 0#1 chip addr data) = writeInstr (Reg.ofAddr addr) chip data := by
  simp [decodeSpi]

theorem decodeSpi_read (chip : ChipAddr) (addr : RegAddr) (sdi : Byte) :
    decodeSpi (spiWord 1#1 chip addr sdi) = readInstr (Reg.ofAddr addr) chip sdi := by
  simp [decodeSpi]

/-- The encoding of a write row is the word of its register's address. -/
theorem encode_writeInstr (r : Reg) (chip : ChipAddr) (data : Byte) :
    encode (writeInstr r chip data) = .spi16 (spiWord 0#1 chip r.addr data) := by
  rcases r with ⟨x⟩ | _ | _ | ⟨x⟩ | ⟨x⟩ | ⟨x⟩ | ⟨x⟩ | ⟨x⟩ | ⟨r⟩ | _ | _
  all_goals first | rfl | (cases x <;> rfl) | (cases r <;> rfl)

/-- The encoding of a read row is the word of its register's address. -/
theorem encode_readInstr (r : Reg) (chip : ChipAddr) (sdi : Byte) :
    encode (readInstr r chip sdi) = .spi16 (spiWord 1#1 chip r.addr sdi) := by
  rcases r with ⟨x⟩ | _ | _ | ⟨x⟩ | ⟨x⟩ | ⟨x⟩ | ⟨x⟩ | ⟨x⟩ | ⟨r⟩ | _ | _
  all_goals first | rfl | (cases x <;> rfl) | (cases r <;> rfl)

end Sys2Proof
end

