-- ==== Sys2Proof/Laws/State.lean ====
section
/-!
SUPPORT. The small lemmas of the record updates: what each shared update leaves in each field of the state.
-/

namespace Sys2Proof.Machine

open Sys2Proof

/-! ## The record of a channel -/

@[simp] theorem chan_a (s : State) : s.chan .a = s.chA := rfl
@[simp] theorem chan_b (s : State) : s.chan .b = s.chB := rfl
@[simp] theorem setChan_a_chA (s : State) (c : Channel) : (s.setChan .a c).chA = c := rfl
@[simp] theorem setChan_a_chB (s : State) (c : Channel) : (s.setChan .a c).chB = s.chB := rfl
@[simp] theorem setChan_b_chA (s : State) (c : Channel) : (s.setChan .b c).chA = s.chA := rfl
@[simp] theorem setChan_b_chB (s : State) (c : Channel) : (s.setChan .b c).chB = c := rfl

@[simp] theorem setChan_chan_same (s : State) (x : Chan) (c : Channel) : (s.setChan x c).chan x = c := by
  cases x <;> rfl

@[simp] theorem setChan_chan_other (s : State) (x : Chan) (c : Channel) :
    (s.setChan x c).chan x.other = s.chan x.other := by
  cases x <;> rfl

theorem setChan_chan (s : State) (x y : Chan) (c : Channel) :
    (s.setChan x c).chan y = if y = x then c else s.chan y := by
  cases x <;> cases y <;> rfl

@[simp] theorem setChan_self (s : State) (x : Chan) : s.setChan x (s.chan x) = s := by
  cases x <;> rfl

@[simp] theorem setChan_setChan (s : State) (x : Chan) (c d : Channel) : (s.setChan x c).setChan x d = s.setChan x d := by
  cases x <;> rfl

theorem chan_other_ne (x : Chan) : x.other ≠ x := by cases x <;> decide

/-! ## setChan -/

@[simp] theorem setChan_irqFlags (x : Chan) (c : Channel) (s : State) : (s.setChan x c).irqFlags = s.irqFlags := by cases x <;> rfl
@[simp] theorem setChan_interruptEn (x : Chan) (c : Channel) (s : State) : (s.setChan x c).interruptEn = s.interruptEn := by cases x <;> rfl
@[simp] theorem setChan_storage (x : Chan) (c : Channel) (s : State) : (s.setChan x c).storage = s.storage := by cases x <;> rfl
@[simp] theorem setChan_spi (x : Chan) (c : Channel) (s : State) : (s.setChan x c).spi = s.spi := by cases x <;> rfl
@[simp] theorem setChan_out (x : Chan) (c : Channel) (s : State) : (s.setChan x c).out = s.out := by cases x <;> rfl
@[simp] theorem setChan_env (x : Chan) (c : Channel) (s : State) : (s.setChan x c).env = s.env := by cases x <;> rfl
@[simp] theorem setChan_boot (x : Chan) (c : Channel) (s : State) : (s.setChan x c).boot = s.boot := by cases x <;> rfl
@[simp] theorem setChan_host (x : Chan) (c : Channel) (s : State) : (s.setChan x c).host = s.host := by cases x <;> rfl
@[simp] theorem setChan_params (x : Chan) (c : Channel) (s : State) : (s.setChan x c).params = s.params := by cases x <;> rfl
@[simp] theorem setChan_draws (x : Chan) (c : Channel) (s : State) : (s.setChan x c).draws = s.draws := by cases x <;> rfl
@[simp] theorem setChan_agenda (x : Chan) (c : Channel) (s : State) : (s.setChan x c).agenda = s.agenda := by cases x <;> rfl

/-! ## emit -/

@[simp] theorem emit_chA (e : OutEvent) (s : State) : (emit e s).chA = s.chA := rfl
@[simp] theorem emit_chB (e : OutEvent) (s : State) : (emit e s).chB = s.chB := rfl
@[simp] theorem emit_irqFlags (e : OutEvent) (s : State) : (emit e s).irqFlags = s.irqFlags := rfl
@[simp] theorem emit_interruptEn (e : OutEvent) (s : State) : (emit e s).interruptEn = s.interruptEn := rfl
@[simp] theorem emit_storage (e : OutEvent) (s : State) : (emit e s).storage = s.storage := rfl
@[simp] theorem emit_spi (e : OutEvent) (s : State) : (emit e s).spi = s.spi := rfl
@[simp] theorem emit_out (e : OutEvent) (s : State) : (emit e s).out = s.out ++ [e] := rfl
@[simp] theorem emit_env (e : OutEvent) (s : State) : (emit e s).env = s.env := rfl
@[simp] theorem emit_boot (e : OutEvent) (s : State) : (emit e s).boot = s.boot := rfl
@[simp] theorem emit_host (e : OutEvent) (s : State) : (emit e s).host = s.host := rfl
@[simp] theorem emit_params (e : OutEvent) (s : State) : (emit e s).params = s.params := rfl
@[simp] theorem emit_draws (e : OutEvent) (s : State) : (emit e s).draws = s.draws := rfl
@[simp] theorem emit_agenda (e : OutEvent) (s : State) : (emit e s).agenda = s.agenda := rfl
@[simp] theorem emit_chan (e : OutEvent) (s : State) (y : Chan) : (emit e s).chan y = s.chan y := by cases y <;> rfl

/-! ## setIrq -/

@[simp] theorem setIrq_chA (m : Byte) (s : State) : (setIrq m s).chA = s.chA := rfl
@[simp] theorem setIrq_chB (m : Byte) (s : State) : (setIrq m s).chB = s.chB := rfl
@[simp] theorem setIrq_irqFlags (m : Byte) (s : State) : (setIrq m s).irqFlags = s.irqFlags ||| m := rfl
@[simp] theorem setIrq_interruptEn (m : Byte) (s : State) : (setIrq m s).interruptEn = s.interruptEn := rfl
@[simp] theorem setIrq_storage (m : Byte) (s : State) : (setIrq m s).storage = s.storage := rfl
@[simp] theorem setIrq_spi (m : Byte) (s : State) : (setIrq m s).spi = s.spi := rfl
@[simp] theorem setIrq_out (m : Byte) (s : State) : (setIrq m s).out = s.out := rfl
@[simp] theorem setIrq_env (m : Byte) (s : State) : (setIrq m s).env = s.env := rfl
@[simp] theorem setIrq_boot (m : Byte) (s : State) : (setIrq m s).boot = s.boot := rfl
@[simp] theorem setIrq_host (m : Byte) (s : State) : (setIrq m s).host = s.host := rfl
@[simp] theorem setIrq_params (m : Byte) (s : State) : (setIrq m s).params = s.params := rfl
@[simp] theorem setIrq_draws (m : Byte) (s : State) : (setIrq m s).draws = s.draws := rfl
@[simp] theorem setIrq_agenda (m : Byte) (s : State) : (setIrq m s).agenda = s.agenda := rfl
@[simp] theorem setIrq_chan (m : Byte) (s : State) (y : Chan) : (setIrq m s).chan y = s.chan y := by cases y <;> rfl

/-! ## clearWurq -/

@[simp] theorem clearWurq_chA (s : State) : (clearWurq s).chA = s.chA := rfl
@[simp] theorem clearWurq_chB (s : State) : (clearWurq s).chB = s.chB := rfl
@[simp] theorem clearWurq_irqFlags (s : State) : (clearWurq s).irqFlags = s.irqFlags &&& ~~~wurqIntMask := rfl
@[simp] theorem clearWurq_interruptEn (s : State) : (clearWurq s).interruptEn = s.interruptEn := rfl
@[simp] theorem clearWurq_storage (s : State) : (clearWurq s).storage = s.storage := rfl
@[simp] theorem clearWurq_spi (s : State) : (clearWurq s).spi = s.spi := rfl
@[simp] theorem clearWurq_out (s : State) : (clearWurq s).out = s.out := rfl
@[simp] theorem clearWurq_env (s : State) : (clearWurq s).env = s.env := rfl
@[simp] theorem clearWurq_boot (s : State) : (clearWurq s).boot = s.boot := rfl
@[simp] theorem clearWurq_host (s : State) : (clearWurq s).host = s.host := rfl
@[simp] theorem clearWurq_params (s : State) : (clearWurq s).params = s.params := rfl
@[simp] theorem clearWurq_draws (s : State) : (clearWurq s).draws = s.draws := rfl
@[simp] theorem clearWurq_agenda (s : State) : (clearWurq s).agenda = s.agenda := rfl
@[simp] theorem clearWurq_chan (s : State) (y : Chan) : (clearWurq s).chan y = s.chan y := by cases y <;> rfl

/-! ## latchFault -/

@[simp] theorem latchFault_irqFlags (x : Chan) (k : CqErrFlag) (s : State) : (latchFault x k s).irqFlags = s.irqFlags ||| k.irqMask x := by cases x <;> rfl
@[simp] theorem latchFault_interruptEn (x : Chan) (k : CqErrFlag) (s : State) : (latchFault x k s).interruptEn = s.interruptEn := by cases x <;> rfl
@[simp] theorem latchFault_storage (x : Chan) (k : CqErrFlag) (s : State) : (latchFault x k s).storage = s.storage := by cases x <;> rfl
@[simp] theorem latchFault_spi (x : Chan) (k : CqErrFlag) (s : State) : (latchFault x k s).spi = s.spi := by cases x <;> rfl
@[simp] theorem latchFault_out (x : Chan) (k : CqErrFlag) (s : State) : (latchFault x k s).out = s.out := by cases x <;> rfl
@[simp] theorem latchFault_env (x : Chan) (k : CqErrFlag) (s : State) : (latchFault x k s).env = s.env := by cases x <;> rfl
@[simp] theorem latchFault_boot (x : Chan) (k : CqErrFlag) (s : State) : (latchFault x k s).boot = s.boot := by cases x <;> rfl
@[simp] theorem latchFault_host (x : Chan) (k : CqErrFlag) (s : State) : (latchFault x k s).host = s.host := by cases x <;> rfl
@[simp] theorem latchFault_params (x : Chan) (k : CqErrFlag) (s : State) : (latchFault x k s).params = s.params := by cases x <;> rfl
@[simp] theorem latchFault_draws (x : Chan) (k : CqErrFlag) (s : State) : (latchFault x k s).draws = s.draws := by cases x <;> rfl
@[simp] theorem latchFault_agenda (x : Chan) (k : CqErrFlag) (s : State) : (latchFault x k s).agenda = s.agenda := by cases x <;> rfl

/-! ## setMsgCtrl -/

@[simp] theorem setMsgCtrl_irqFlags (x : Chan) (v : Byte) (s : State) : (setMsgCtrl x v s).irqFlags = s.irqFlags := by cases x <;> rfl
@[simp] theorem setMsgCtrl_interruptEn (x : Chan) (v : Byte) (s : State) : (setMsgCtrl x v s).interruptEn = s.interruptEn := by cases x <;> rfl
@[simp] theorem setMsgCtrl_storage (x : Chan) (v : Byte) (s : State) : (setMsgCtrl x v s).storage = s.storage := by cases x <;> rfl
@[simp] theorem setMsgCtrl_spi (x : Chan) (v : Byte) (s : State) : (setMsgCtrl x v s).spi = s.spi := by cases x <;> rfl
@[simp] theorem setMsgCtrl_out (x : Chan) (v : Byte) (s : State) : (setMsgCtrl x v s).out = s.out := by cases x <;> rfl
@[simp] theorem setMsgCtrl_env (x : Chan) (v : Byte) (s : State) : (setMsgCtrl x v s).env = s.env := by cases x <;> rfl
@[simp] theorem setMsgCtrl_boot (x : Chan) (v : Byte) (s : State) : (setMsgCtrl x v s).boot = s.boot := by cases x <;> rfl
@[simp] theorem setMsgCtrl_host (x : Chan) (v : Byte) (s : State) : (setMsgCtrl x v s).host = s.host := by cases x <;> rfl
@[simp] theorem setMsgCtrl_params (x : Chan) (v : Byte) (s : State) : (setMsgCtrl x v s).params = s.params := by cases x <;> rfl
@[simp] theorem setMsgCtrl_draws (x : Chan) (v : Byte) (s : State) : (setMsgCtrl x v s).draws = s.draws := by cases x <;> rfl
@[simp] theorem setMsgCtrl_agenda (x : Chan) (v : Byte) (s : State) : (setMsgCtrl x v s).agenda = s.agenda := by cases x <;> rfl

/-! ## storeReg -/

@[simp] theorem storeReg_chA (r : StoreReg) (v : Byte) (s : State) : (storeReg r v s).chA = s.chA := rfl
@[simp] theorem storeReg_chB (r : StoreReg) (v : Byte) (s : State) : (storeReg r v s).chB = s.chB := rfl
@[simp] theorem storeReg_irqFlags (r : StoreReg) (v : Byte) (s : State) : (storeReg r v s).irqFlags = s.irqFlags := rfl
@[simp] theorem storeReg_interruptEn (r : StoreReg) (v : Byte) (s : State) : (storeReg r v s).interruptEn = s.interruptEn := rfl
@[simp] theorem storeReg_storage (r : StoreReg) (v : Byte) (s : State) : (storeReg r v s).storage = storageSet s.storage r v := rfl
@[simp] theorem storeReg_spi (r : StoreReg) (v : Byte) (s : State) : (storeReg r v s).spi = s.spi := rfl
@[simp] theorem storeReg_out (r : StoreReg) (v : Byte) (s : State) : (storeReg r v s).out = s.out := rfl
@[simp] theorem storeReg_env (r : StoreReg) (v : Byte) (s : State) : (storeReg r v s).env = s.env := rfl
@[simp] theorem storeReg_boot (r : StoreReg) (v : Byte) (s : State) : (storeReg r v s).boot = s.boot := rfl
@[simp] theorem storeReg_host (r : StoreReg) (v : Byte) (s : State) : (storeReg r v s).host = s.host := rfl
@[simp] theorem storeReg_params (r : StoreReg) (v : Byte) (s : State) : (storeReg r v s).params = s.params := rfl
@[simp] theorem storeReg_draws (r : StoreReg) (v : Byte) (s : State) : (storeReg r v s).draws = s.draws := rfl
@[simp] theorem storeReg_agenda (r : StoreReg) (v : Byte) (s : State) : (storeReg r v s).agenda = s.agenda := rfl
@[simp] theorem storeReg_chan (r : StoreReg) (v : Byte) (s : State) (y : Chan) : (storeReg r v s).chan y = s.chan y := by cases y <;> rfl

/-! ## blockReset -/

@[simp] theorem blockReset_irqFlags (s : State) : (blockReset s).irqFlags = 0x00 := rfl
@[simp] theorem blockReset_interruptEn (s : State) : (blockReset s).interruptEn = 0x00 := rfl
@[simp] theorem blockReset_storage (s : State) : (blockReset s).storage = s.params.resetValue := rfl
@[simp] theorem blockReset_out (s : State) : (blockReset s).out = s.out := rfl
@[simp] theorem blockReset_env (s : State) : (blockReset s).env = s.env := rfl
@[simp] theorem blockReset_boot (s : State) : (blockReset s).boot = s.boot := rfl
@[simp] theorem blockReset_host (s : State) : (blockReset s).host = s.host := rfl
@[simp] theorem blockReset_params (s : State) : (blockReset s).params = s.params := rfl
@[simp] theorem blockReset_draws (s : State) : (blockReset s).draws = s.draws + 2 := rfl
@[simp] theorem blockReset_agenda (s : State) : (blockReset s).agenda = s.agenda := rfl

/-! ## spiShift -/

@[simp] theorem spiShift_chA (cmd : Byte) (s : State) : (spiShift cmd s).chA = s.chA := rfl
@[simp] theorem spiShift_chB (cmd : Byte) (s : State) : (spiShift cmd s).chB = s.chB := rfl
@[simp] theorem spiShift_irqFlags (cmd : Byte) (s : State) : (spiShift cmd s).irqFlags = s.irqFlags := rfl
@[simp] theorem spiShift_interruptEn (cmd : Byte) (s : State) : (spiShift cmd s).interruptEn = s.interruptEn := rfl
@[simp] theorem spiShift_storage (cmd : Byte) (s : State) : (spiShift cmd s).storage = s.storage := rfl
@[simp] theorem spiShift_out (cmd : Byte) (s : State) : (spiShift cmd s).out = s.out := rfl
@[simp] theorem spiShift_env (cmd : Byte) (s : State) : (spiShift cmd s).env = s.env := rfl
@[simp] theorem spiShift_boot (cmd : Byte) (s : State) : (spiShift cmd s).boot = s.boot := rfl
@[simp] theorem spiShift_host (cmd : Byte) (s : State) : (spiShift cmd s).host = s.host := rfl
@[simp] theorem spiShift_params (cmd : Byte) (s : State) : (spiShift cmd s).params = s.params := rfl
@[simp] theorem spiShift_draws (cmd : Byte) (s : State) : (spiShift cmd s).draws = s.draws + 2 := rfl
@[simp] theorem spiShift_agenda (cmd : Byte) (s : State) : (spiShift cmd s).agenda = s.agenda := rfl
@[simp] theorem spiShift_chan (cmd : Byte) (s : State) (y : Chan) : (spiShift cmd s).chan y = s.chan y := by cases y <;> rfl

/-! ## acquireLock -/

@[simp] theorem acquireLock_chA (s : State) : (acquireLock s).chA = s.chA := rfl
@[simp] theorem acquireLock_chB (s : State) : (acquireLock s).chB = s.chB := rfl
@[simp] theorem acquireLock_irqFlags (s : State) : (acquireLock s).irqFlags = s.irqFlags := rfl
@[simp] theorem acquireLock_interruptEn (s : State) : (acquireLock s).interruptEn = s.interruptEn := rfl
@[simp] theorem acquireLock_storage (s : State) : (acquireLock s).storage = s.storage := rfl
@[simp] theorem acquireLock_spi (s : State) : (acquireLock s).spi = s.spi := rfl
@[simp] theorem acquireLock_out (s : State) : (acquireLock s).out = s.out := rfl
@[simp] theorem acquireLock_env (s : State) : (acquireLock s).env = s.env := rfl
@[simp] theorem acquireLock_boot (s : State) : (acquireLock s).boot = s.boot := rfl
@[simp] theorem acquireLock_params (s : State) : (acquireLock s).params = s.params := rfl
@[simp] theorem acquireLock_draws (s : State) : (acquireLock s).draws = s.draws := rfl
@[simp] theorem acquireLock_agenda (s : State) : (acquireLock s).agenda = s.agenda := rfl
@[simp] theorem acquireLock_chan (s : State) (y : Chan) : (acquireLock s).chan y = s.chan y := by cases y <;> rfl

/-! ## releaseLock -/

@[simp] theorem releaseLock_chA (s : State) : (releaseLock s).chA = s.chA := rfl
@[simp] theorem releaseLock_chB (s : State) : (releaseLock s).chB = s.chB := rfl
@[simp] theorem releaseLock_irqFlags (s : State) : (releaseLock s).irqFlags = s.irqFlags := rfl
@[simp] theorem releaseLock_interruptEn (s : State) : (releaseLock s).interruptEn = s.interruptEn := rfl
@[simp] theorem releaseLock_storage (s : State) : (releaseLock s).storage = s.storage := rfl
@[simp] theorem releaseLock_spi (s : State) : (releaseLock s).spi = s.spi := rfl
@[simp] theorem releaseLock_out (s : State) : (releaseLock s).out = s.out := rfl
@[simp] theorem releaseLock_env (s : State) : (releaseLock s).env = s.env := rfl
@[simp] theorem releaseLock_boot (s : State) : (releaseLock s).boot = s.boot := rfl
@[simp] theorem releaseLock_params (s : State) : (releaseLock s).params = s.params := rfl
@[simp] theorem releaseLock_draws (s : State) : (releaseLock s).draws = s.draws := rfl
@[simp] theorem releaseLock_agenda (s : State) : (releaseLock s).agenda = s.agenda := rfl
@[simp] theorem releaseLock_chan (s : State) (y : Chan) : (releaseLock s).chan y = s.chan y := by cases y <;> rfl

/-! ## setExchange -/

@[simp] theorem setExchange_chA (ok : Bool) (s : State) : (setExchange ok s).chA = s.chA := rfl
@[simp] theorem setExchange_chB (ok : Bool) (s : State) : (setExchange ok s).chB = s.chB := rfl
@[simp] theorem setExchange_irqFlags (ok : Bool) (s : State) : (setExchange ok s).irqFlags = s.irqFlags := rfl
@[simp] theorem setExchange_interruptEn (ok : Bool) (s : State) : (setExchange ok s).interruptEn = s.interruptEn := rfl
@[simp] theorem setExchange_storage (ok : Bool) (s : State) : (setExchange ok s).storage = s.storage := rfl
@[simp] theorem setExchange_out (ok : Bool) (s : State) : (setExchange ok s).out = s.out := rfl
@[simp] theorem setExchange_env (ok : Bool) (s : State) : (setExchange ok s).env = s.env := rfl
@[simp] theorem setExchange_boot (ok : Bool) (s : State) : (setExchange ok s).boot = s.boot := rfl
@[simp] theorem setExchange_host (ok : Bool) (s : State) : (setExchange ok s).host = s.host := rfl
@[simp] theorem setExchange_params (ok : Bool) (s : State) : (setExchange ok s).params = s.params := rfl
@[simp] theorem setExchange_draws (ok : Bool) (s : State) : (setExchange ok s).draws = s.draws := rfl
@[simp] theorem setExchange_agenda (ok : Bool) (s : State) : (setExchange ok s).agenda = s.agenda := rfl
@[simp] theorem setExchange_chan (ok : Bool) (s : State) (y : Chan) : (setExchange ok s).chan y = s.chan y := by cases y <;> rfl

/-! ## become -/

@[simp] theorem become_chA (slot : Slot) (t : Task) (n : Nat) (s : State) : (become slot t n s).chA = s.chA := rfl
@[simp] theorem become_chB (slot : Slot) (t : Task) (n : Nat) (s : State) : (become slot t n s).chB = s.chB := rfl
@[simp] theorem become_irqFlags (slot : Slot) (t : Task) (n : Nat) (s : State) : (become slot t n s).irqFlags = s.irqFlags := rfl
@[simp] theorem become_interruptEn (slot : Slot) (t : Task) (n : Nat) (s : State) : (become slot t n s).interruptEn = s.interruptEn := rfl
@[simp] theorem become_storage (slot : Slot) (t : Task) (n : Nat) (s : State) : (become slot t n s).storage = s.storage := rfl
@[simp] theorem become_spi (slot : Slot) (t : Task) (n : Nat) (s : State) : (become slot t n s).spi = s.spi := rfl
@[simp] theorem become_out (slot : Slot) (t : Task) (n : Nat) (s : State) : (become slot t n s).out = s.out := rfl
@[simp] theorem become_env (slot : Slot) (t : Task) (n : Nat) (s : State) : (become slot t n s).env = s.env := rfl
@[simp] theorem become_boot (slot : Slot) (t : Task) (n : Nat) (s : State) : (become slot t n s).boot = s.boot := rfl
@[simp] theorem become_host (slot : Slot) (t : Task) (n : Nat) (s : State) : (become slot t n s).host = s.host.setTask slot (some { task := t, wait := n }) := rfl
@[simp] theorem become_params (slot : Slot) (t : Task) (n : Nat) (s : State) : (become slot t n s).params = s.params := rfl
@[simp] theorem become_draws (slot : Slot) (t : Task) (n : Nat) (s : State) : (become slot t n s).draws = s.draws := rfl
@[simp] theorem become_agenda (slot : Slot) (t : Task) (n : Nat) (s : State) : (become slot t n s).agenda = s.agenda := rfl
@[simp] theorem become_chan (slot : Slot) (t : Task) (n : Nat) (s : State) (y : Chan) : (become slot t n s).chan y = s.chan y := by cases y <;> rfl

/-! ## finish -/

@[simp] theorem finish_chA (slot : Slot) (r : HostResult) (s : State) : (finish slot r s).chA = s.chA := rfl
@[simp] theorem finish_chB (slot : Slot) (r : HostResult) (s : State) : (finish slot r s).chB = s.chB := rfl
@[simp] theorem finish_irqFlags (slot : Slot) (r : HostResult) (s : State) : (finish slot r s).irqFlags = s.irqFlags := rfl
@[simp] theorem finish_interruptEn (slot : Slot) (r : HostResult) (s : State) : (finish slot r s).interruptEn = s.interruptEn := rfl
@[simp] theorem finish_storage (slot : Slot) (r : HostResult) (s : State) : (finish slot r s).storage = s.storage := rfl
@[simp] theorem finish_spi (slot : Slot) (r : HostResult) (s : State) : (finish slot r s).spi = s.spi := rfl
@[simp] theorem finish_out (slot : Slot) (r : HostResult) (s : State) : (finish slot r s).out = s.out := rfl
@[simp] theorem finish_env (slot : Slot) (r : HostResult) (s : State) : (finish slot r s).env = s.env := rfl
@[simp] theorem finish_boot (slot : Slot) (r : HostResult) (s : State) : (finish slot r s).boot = s.boot := rfl
@[simp] theorem finish_params (slot : Slot) (r : HostResult) (s : State) : (finish slot r s).params = s.params := rfl
@[simp] theorem finish_draws (slot : Slot) (r : HostResult) (s : State) : (finish slot r s).draws = s.draws := rfl
@[simp] theorem finish_agenda (slot : Slot) (r : HostResult) (s : State) : (finish slot r s).agenda = s.agenda := rfl
@[simp] theorem finish_chan (slot : Slot) (r : HostResult) (s : State) (y : Chan) : (finish slot r s).chan y = s.chan y := by cases y <;> rfl

/-! ## answer -/

@[simp] theorem answer_chA (slot : Slot) (r : HostResult) (s : State) : (answer slot r s).chA = s.chA := rfl
@[simp] theorem answer_chB (slot : Slot) (r : HostResult) (s : State) : (answer slot r s).chB = s.chB := rfl
@[simp] theorem answer_irqFlags (slot : Slot) (r : HostResult) (s : State) : (answer slot r s).irqFlags = s.irqFlags := rfl
@[simp] theorem answer_interruptEn (slot : Slot) (r : HostResult) (s : State) : (answer slot r s).interruptEn = s.interruptEn := rfl
@[simp] theorem answer_storage (slot : Slot) (r : HostResult) (s : State) : (answer slot r s).storage = s.storage := rfl
@[simp] theorem answer_spi (slot : Slot) (r : HostResult) (s : State) : (answer slot r s).spi = s.spi := rfl
@[simp] theorem answer_out (slot : Slot) (r : HostResult) (s : State) : (answer slot r s).out = s.out := rfl
@[simp] theorem answer_env (slot : Slot) (r : HostResult) (s : State) : (answer slot r s).env = s.env := rfl
@[simp] theorem answer_boot (slot : Slot) (r : HostResult) (s : State) : (answer slot r s).boot = s.boot := rfl
@[simp] theorem answer_params (slot : Slot) (r : HostResult) (s : State) : (answer slot r s).params = s.params := rfl
@[simp] theorem answer_draws (slot : Slot) (r : HostResult) (s : State) : (answer slot r s).draws = s.draws := rfl
@[simp] theorem answer_agenda (slot : Slot) (r : HostResult) (s : State) : (answer slot r s).agenda = s.agenda := rfl
@[simp] theorem answer_chan (slot : Slot) (r : HostResult) (s : State) (y : Chan) : (answer slot r s).chan y = s.chan y := by cases y <;> rfl
@[simp] theorem answer_lock (slot : Slot) (r : HostResult) (s : State) : (answer slot r s).host.spiLock = s.host.spiLock := rfl
@[simp] theorem answer_task (slot sl : Slot) (r : HostResult) (s : State) : (answer slot r s).host.task sl = s.host.task sl := by
  rcases sl with _ | x
  · rfl
  · cases x <;> rfl

/-! ## The channel of a latched fault -/

theorem latchFault_chan_same (x : Chan) (k : CqErrFlag) (s : State) :
    (latchFault x k s).chan x = { s.chan x with cqerr := (s.chan x).cqerr ||| k.mask } := by
  cases x <;> rfl

@[simp] theorem latchFault_chan_other (x : Chan) (k : CqErrFlag) (s : State) :
    (latchFault x k s).chan x.other = s.chan x.other := by
  cases x <;> rfl

/-! ## The lock and the port -/

@[simp] theorem acquireLock_lock (s : State) : (acquireLock s).host.spiLock = true := rfl
@[simp] theorem releaseLock_lock (s : State) : (releaseLock s).host.spiLock = false := rfl
@[simp] theorem spiShift_phase (cmd : Byte) (s : State) : (spiShift cmd s).spi.phase = .idle := rfl
@[simp] theorem spiShift_cmd (cmd : Byte) (s : State) : (spiShift cmd s).spi.cmd = cmd := rfl
@[simp] theorem blockReset_phase (s : State) : (blockReset s).spi.phase = .idle := rfl
@[simp] theorem setExchange_ok (ok : Bool) (s : State) : (setExchange ok s).spi.exchangeOk = ok := rfl
@[simp] theorem setTask_spiLock (h : HostSide) (slot : Slot) (r : Option Running) :
    (h.setTask slot r).spiLock = h.spiLock := by
  rcases slot with _ | x
  · cases r <;> rfl
  · cases x <;> rfl
@[simp] theorem setTask_returns (h : HostSide) (slot : Slot) (r : Option Running) :
    (h.setTask slot r).returns = h.returns := by
  rcases slot with _ | x
  · cases r <;> rfl
  · cases x <;> rfl
@[simp] theorem setTask_portsInit (h : HostSide) (slot : Slot) (r : Option Running) :
    (h.setTask slot r).portsInit = h.portsInit := by
  rcases slot with _ | x
  · cases r <;> rfl
  · cases x <;> rfl
@[simp] theorem become_lock (slot : Slot) (t : Task) (n : Nat) (s : State) :
    (become slot t n s).host.spiLock = s.host.spiLock := setTask_spiLock _ _ _
@[simp] theorem finish_lock (slot : Slot) (r : HostResult) (s : State) :
    (finish slot r s).host.spiLock = s.host.spiLock := setTask_spiLock _ _ _

/-! ## The slots of the host -/

theorem callerTask_put (caller m : Nat) (r : Running) (l : List (Nat × Running)) :
    callerTask m (putCaller caller r l) = if m = caller then some r else callerTask m l := by
  induction l with
  | nil => simp [putCaller, callerTask]
  | cons p l ih =>
    obtain ⟨n, q⟩ := p
    unfold putCaller
    split
    · simp [callerTask]
    · split
      · subst caller
        by_cases hm : m = n <;> simp [callerTask, hm]
      · rename_i hn
        by_cases hm : m = n
        · subst m
          simp [callerTask, Ne.symm hn]
        · simp [callerTask, hm, ih]

theorem callerTask_drop (caller m : Nat) (l : List (Nat × Running)) :
    callerTask m (dropCaller caller l) = if m = caller then none else callerTask m l := by
  induction l with
  | nil => simp [dropCaller, callerTask]
  | cons p l ih =>
    obtain ⟨n, q⟩ := p
    simp only [dropCaller] at ih ⊢
    by_cases hn : n = caller
    · subst n
      rw [List.filter_cons_of_neg (by simp), ih]
      by_cases hm : m = caller <;> simp [callerTask, hm]
    · rw [List.filter_cons_of_pos (by simpa using hn)]
      by_cases hm : m = n
      · subst m
        simp [callerTask, hn]
      · simp only [callerTask, hm, if_false, ih]

/-- A slot holds what was put in it, and every other slot what it held. -/
theorem setTask_task (h : HostSide) (slot sl : Slot) (r : Option Running) :
    (h.setTask slot r).task sl = if sl = slot then r else h.task sl := by
  rcases slot with n | x <;> rcases sl with m | y
  · cases r with
    | none => simpa [HostSide.setTask, HostSide.task] using callerTask_drop n m h.chipTasks
    | some t => simpa [HostSide.setTask, HostSide.task] using callerTask_put n m t h.chipTasks
  · cases y <;> simp [HostSide.setTask, HostSide.task]
  · cases x <;> simp [HostSide.setTask, HostSide.task]
  · cases x <;> cases y <;> simp [HostSide.setTask, HostSide.task]

theorem become_task (slot sl : Slot) (t : Task) (n : Nat) (s : State) :
    (become slot t n s).host.task sl = if sl = slot then some { task := t, wait := n } else s.host.task sl :=
  setTask_task _ _ _ _

@[simp] theorem finish_task (slot sl : Slot) (r : HostResult) (s : State) :
    (finish slot r s).host.task sl = if sl = slot then none else s.host.task sl := by
  rw [← setTask_task s.host slot sl none]
  rcases sl with _ | x
  · rfl
  · cases x <;> rfl

/-- A tick counts the wait of every slot down (R200). -/
theorem tick_task (h : HostSide) (sl : Slot) : h.tick.task sl = (h.task sl).map Running.tick := by
  rcases sl with m | x
  · show callerTask m (h.chipTasks.map fun p => (p.1, p.2.tick)) = (callerTask m h.chipTasks).map Running.tick
    induction h.chipTasks with
    | nil => rfl
    | cons p l ih =>
      simp only [List.map_cons, callerTask]
      split
      · rfl
      · exact ih
  · cases x <;> rfl

/-- The callers of the chip-level sequences rise. -/
def HostSide.Rising (h : HostSide) : Prop := (h.chipTasks.map Prod.fst).Pairwise (· < ·)

theorem putCaller_mem {caller m : Nat} {r : Running} {l : List (Nat × Running)}
    (h : m ∈ (putCaller caller r l).map Prod.fst) : m = caller ∨ m ∈ l.map Prod.fst := by
  induction l with
  | nil => exact .inl (by simpa [putCaller] using h)
  | cons p l ih =>
    unfold putCaller at h
    split at h
    · simpa using h
    · split at h
      · rcases (by simpa using h) with h | h
        · exact .inl h
        · exact .inr (by simp [h])
      · rcases List.mem_cons.mp h with h | h
        · exact .inr (by simp [h])
        · rcases ih h with h | h
          · exact .inl h
          · exact .inr (List.mem_cons_of_mem _ h)

/-- What runs in the slots keeps its one form, whatever is put in or taken out. -/
theorem setTask_rising {h : HostSide} (hr : h.Rising) (slot : Slot) (r : Option Running) : (h.setTask slot r).Rising := by
  unfold HostSide.Rising at *
  rcases slot with n | x
  · cases r with
    | none => exact hr.sublist (List.Sublist.map _ List.filter_sublist)
    | some t =>
      show ((putCaller n t h.chipTasks).map Prod.fst).Pairwise (· < ·)
      revert hr
      generalize h.chipTasks = l
      intro hr
      induction l with
      | nil => simp [putCaller]
      | cons p l ih =>
        obtain ⟨hp, hl⟩ := List.pairwise_cons.mp hr
        unfold putCaller
        split
        · refine List.pairwise_cons.mpr ⟨fun m hm => ?_, hr⟩
          rcases List.mem_cons.mp hm with rfl | hm
          · assumption
          · exact Nat.lt_trans ‹_› (hp m hm)
        · split
          · subst n
            exact List.pairwise_cons.mpr ⟨hp, hl⟩
          · refine List.pairwise_cons.mpr ⟨fun m hm => ?_, ih hl⟩
            rcases putCaller_mem hm with rfl | hm
            · omega
            · exact hp m hm
  · cases x <;> exact hr

/-! ## The storage registers -/

/-- A storage register reads what was written to it. -/
@[simp] theorem storageGet_set_same (m : StorageRegs) (r : StoreReg) (v : Byte) :
    storageGet (storageSet m r v) r = v := by
  cases r <;> rfl

/-- A write of one storage register leaves every other one. -/
theorem storageGet_set_other (m : StorageRegs) (r q : StoreReg) (v : Byte) (h : q ≠ r) :
    storageGet (storageSet m r v) q = storageGet m q := by
  cases r <;> cases q <;> first | rfl | exact absurd rfl h

end Sys2Proof.Machine
end

