-- ==== Sys2Proof/Laws/Ops.lean ====
section
/-!
SUPPORT. What each shared operation can do, said once: if it answers a next state, then one of these cases holds.
-/

namespace Sys2Proof.Machine

open Sys2Proof

/-! ## Outcomes -/

@[simp] theorem onNext_next (s : State) (f : State → Outcome) : onNext (.next s) f = f s := rfl
@[simp] theorem onNext_fault (r : Fault) (f : State → Outcome) : onNext (.fault r) f = .fault r := rfl
@[simp] theorem onNext_refused (r : Refusal) (f : State → Outcome) : onNext (.refused r) f = .refused r := rfl

/-- A sequence answers a next state exactly when its parts do. -/
theorem onNext_eq_next {o : Outcome} {f : State → Outcome} {t : State} :
    onNext o f = .next t ↔ ∃ u, o = .next u ∧ f u = .next t := by
  cases o <;> simp

/-- Sequencing is associative. -/
theorem onNext_assoc (o : Outcome) (f g : State → Outcome) :
    onNext (onNext o f) g = onNext o fun t => onNext (f t) g := by cases o <;> rfl

/-! ## The rows -/

/-- The meaning of the write row of a register is the dispatch arm of that register (R111, R113). -/
theorem exec_writeInstr (r : Reg) (chip : ChipAddr) (v : Byte) (s : State) :
    exec (writeInstr r chip v) s = spiWrite chip r.addr (regWrite r v) s := by
  rcases r with ⟨x⟩ | _ | _ | ⟨x⟩ | ⟨x⟩ | ⟨x⟩ | ⟨x⟩ | ⟨x⟩ | ⟨r⟩ | _ | _
  all_goals first | rfl | (cases x <;> rfl) | (cases r <;> rfl)

/-- The meaning of the read row of a register is the dispatch arm of that register (R112, R114). -/
theorem exec_readInstr (r : Reg) (chip : ChipAddr) (sdi : Byte) (s : State) :
    exec (readInstr r chip sdi) s = spiRead chip r.addr (regRead r) s := by
  rcases r with ⟨x⟩ | _ | _ | ⟨x⟩ | ⟨x⟩ | ⟨x⟩ | ⟨x⟩ | ⟨x⟩ | ⟨r⟩ | _ | _
  all_goals first | rfl | (cases x <;> rfl) | (cases r <;> rfl)

/-! ## Transactions -/

/-- What a write transaction can do: the access, or nothing but the port when the chip address is another's. -/
theorem spiWrite_eq_next {chip : ChipAddr} {addr : RegAddr} {act : State → Outcome} {s t : State}
    (h : spiWrite chip addr act s = .next t) :
    (chip = s.params.chipAddr ∧ act (spiShift (commandByte 0#1 chip addr) s) = .next t) ∨
    (chip ≠ s.params.chipAddr ∧ t = spiShift s.spi.cmd s) := by
  unfold spiWrite at h
  split at h
  · exact .inl ⟨‹_›, h⟩
  · exact .inr ⟨‹_›, by injection h with h; exact h.symm⟩

/-- A write transaction with the block's own chip address is its access. -/
theorem spiWrite_own {chip : ChipAddr} {addr : RegAddr} {act : State → Outcome} {s : State}
    (h : chip = s.params.chipAddr) :
    spiWrite chip addr act s = act (spiShift (commandByte 0#1 chip addr) s) := if_pos h

/-- A write transaction with another chip's address (R116). -/
theorem spiWrite_other {chip : ChipAddr} {addr : RegAddr} {act : State → Outcome} {s : State}
    (h : chip ≠ s.params.chipAddr) :
    spiWrite chip addr act s = .next (spiShift s.spi.cmd s) := if_neg h

/-- A read transaction with the block's own chip address answers the value read on SDO. -/
theorem spiRead_own {chip : ChipAddr} {addr : RegAddr} {act : State → Byte × State} {s : State}
    (h : chip = s.params.chipAddr) :
    spiRead chip addr act s =
      .next { (act (spiShift (commandByte 1#1 chip addr) s)).2 with
        spi := { (act (spiShift (commandByte 1#1 chip addr) s)).2.spi with
          sdoData := (act (spiShift (commandByte 1#1 chip addr) s)).1 } } := if_pos h

/-- A read transaction with another chip's address (R116). -/
theorem spiRead_other {chip : ChipAddr} {addr : RegAddr} {act : State → Byte × State} {s : State}
    (h : chip ≠ s.params.chipAddr) :
    spiRead chip addr act s = .next (spiShift s.spi.cmd s) := if_neg h

/-! ## The framer -/

/-- What a push can do (R161). -/
theorem txPush_cases (x : Chan) (v : Byte) (s : State) :
    ((s.chan x).txfifo.length < 64 ∧ txPush x v s = s.setChan x { s.chan x with txfifo := (s.chan x).txfifo ++ [v] }) ∨
    (64 ≤ (s.chan x).txfifo.length ∧ txPush x v s = latchFault x .txSize s) := by
  by_cases h : (s.chan x).txfifo.length < 64
  · exact .inl ⟨h, by simp [txPush, fifoHasRoom, Config.fifoDepth, h, fifoPush]⟩
  · exact .inr ⟨by omega, by simp [txPush, fifoHasRoom, Config.fifoDepth, h]⟩

/-- What a pop can do (R162). -/
theorem rxPop_cases (x : Chan) (s : State) :
    ((s.chan x).rxfifo = [] ∧ rxPop x s = (Config.freeByte s.draws, { s with draws := s.draws + 1 })) ∨
    (∃ b rest, (s.chan x).rxfifo = b :: rest ∧ rxPop x s = (b, s.setChan x { s.chan x with rxfifo := rest })) := by
  unfold rxPop
  split
  · exact .inl ⟨‹_›, rfl⟩
  · exact .inr ⟨_, _, ‹_›, rfl⟩

/-- What CQSend can do (R166): ignored, a size fault, or a message sent or destroyed. -/
theorem cqSend_eq_next {x : Chan} {s t : State} (h : cqSend x s = .next t) :
    ((s.chan x).framerEn = false ∧ t = s) ∨
    ((s.chan x).framerEn = true ∧ (s.chan x).xfer = .xIdle ∧ (s.chan x).txfifo = [] ∧ t = latchFault x .txSize s) ∨
    ((s.chan x).framerEn = true ∧ (s.chan x).xfer = .xIdle ∧ (s.chan x).txfifo ≠ [] ∧ t = sendLoaded x s) := by
  unfold cqSend at h
  split at h
  · injection h with h
    exact .inl ⟨‹_›, h.symm⟩
  · have hf : (s.chan x).framerEn = true := by simpa using ‹¬(s.chan x).framerEn = false›
    split at h
    · cases h
    · have hx : (s.chan x).xfer = .xIdle := by
        cases hc : (s.chan x).xfer with
        | xIdle => rfl
        | xAwait => exact absurd hc ‹_›
      split at h <;> injection h with h
      · exact .inr (.inl ⟨hf, hx, ‹_›, h.symm⟩)
      · exact .inr (.inr ⟨hf, hx, ‹_›, h.symm⟩)

/-- When CQSend stops: exactly on a second transfer in flight (R166). -/
theorem cqSend_refused_iff (x : Chan) (s : State) (r : Refusal) :
    cqSend x s = .refused r ↔ (s.chan x).framerEn = true ∧ (s.chan x).xfer = .xAwait ∧ r = .secondTransfer := by
  unfold cqSend
  by_cases hf : (s.chan x).framerEn = false
  · simp [hf]
  · rw [if_neg hf]
    have hf' : (s.chan x).framerEn = true := by simpa using hf
    by_cases hx : (s.chan x).xfer = .xAwait
    · rw [if_pos hx]
      simp [hf', hx, eq_comm]
    · rw [if_neg hx]
      by_cases he : (s.chan x).txfifo = []
      · simp [he, hx]
      · simp [he, hx]

/-- What sending a loaded message can do (R166 to R169). -/
theorem sendLoaded_cases (x : Chan) (s : State) :
    (txCheckOk (s.chan x).msgCtrl (s.chan x).txfifo = false ∧ txErDestroy (s.chan x).msgCtrl = true ∧
      sendLoaded x s = (latchFault x .txChecksum s).setChan x
        { (latchFault x .txChecksum s).chan x with txfifo := [] }) ∨
    (∃ u : State, (u = s ∨ u = latchFault x .txChecksum s) ∧
      sendLoaded x s = (emit (.lineTx x (txMessage (s.chan x).msgCtrl (s.chan x).txfifo)) u).setChan x
        { u.chan x with rxmsg := [], xfer := .xAwait,
                        txfifo := if txKeepMsg (s.chan x).msgCtrl then (s.chan x).txfifo else [] }) := by
  by_cases hk : txCheckOk (s.chan x).msgCtrl (s.chan x).txfifo = true
  · exact .inr ⟨s, .inl rfl, by simp [sendLoaded, hk]⟩
  · simp only [Bool.not_eq_true] at hk
    by_cases hd : txErDestroy (s.chan x).msgCtrl = true
    · exact .inl ⟨hk, hd, by simp [sendLoaded, hk, hd]⟩
    · exact .inr ⟨latchFault x .txChecksum s, .inr rfl, by simp [sendLoaded, hk, hd]⟩

/-- What a write of CQCtrl can do (R22). -/
theorem writeCqCtrl_eq_next {x : Chan} {v : Byte} {s t : State} (h : writeCqCtrl x v s = .next t) :
    (cqSendBit v = false ∧ t = cqCtrlTriggers x v s) ∨
    (cqSendBit v = true ∧ cqSend x (cqCtrlTriggers x v s) = .next t) := by
  unfold writeCqCtrl at h
  split at h
  · exact .inr ⟨‹_›, h⟩
  · injection h with h
    exact .inl ⟨by simpa using ‹¬cqSendBit v = true›, h.symm⟩

/-! ## The sequencer -/

@[simp] theorem setChan_wurqInt (x : Chan) (c : Channel) (s : State) : (s.setChan x c).wurqInt = s.wurqInt := by
  cases x <;> rfl

/-- What one millisecond can do to a channel (R139): nothing, count, detect, or expire. -/
theorem tickChan_cases (x : Chan) (s : State) :
    ((s.chan x).wuState ≠ .awaitingResponse ∧ tickChan x s = s) ∨
    ((s.chan x).wuState = .awaitingResponse ∧ s.wurqInt = true ∧
      tickChan x s = detect x (clearWurq (s.setChan x { s.chan x with wuTimer := (s.chan x).wuTimer - 1 }))) ∨
    ((s.chan x).wuState = .awaitingResponse ∧ s.wurqInt = false ∧ (s.chan x).wuTimer - 1 = 0 ∧
      tickChan x s = expire x (s.setChan x { s.chan x with wuTimer := (s.chan x).wuTimer - 1 })) ∨
    ((s.chan x).wuState = .awaitingResponse ∧ s.wurqInt = false ∧ (s.chan x).wuTimer - 1 ≠ 0 ∧
      tickChan x s = s.setChan x { s.chan x with wuTimer := (s.chan x).wuTimer - 1 }) := by
  by_cases ha : (s.chan x).wuState = .awaitingResponse
  · by_cases hq : s.wurqInt = true
    · exact .inr (.inl ⟨ha, hq, by simp [tickChan, ha, hq]⟩)
    · simp only [Bool.not_eq_true] at hq
      by_cases ht : (s.chan x).wuTimer - 1 = 0
      · exact .inr (.inr (.inl ⟨ha, hq, ht, by simp [tickChan, ha, hq, ht]⟩))
      · exact .inr (.inr (.inr ⟨ha, hq, ht, by simp [tickChan, ha, hq, ht]⟩))
  · exact .inl ⟨ha, by simp [tickChan, ha]⟩

/-- What `Expire` can do (R141): another pulse is due, or the sequence has failed. -/
theorem expire_cases (x : Chan) (s : State) :
    ((s.chan x).wuPulses < 5 ∧ expire x s = s.setChan x { s.chan x with wuState := .pulsing }) ∨
    (5 ≤ (s.chan x).wuPulses ∧
      expire x s = (emit (.wakeUpTimeout x) s).setChan x (Channel.replay { s.chan x with wuState := .failed })) := by
  by_cases h : (s.chan x).wuPulses < 5
  · exact .inl ⟨h, by simp [expire, Config.wuMaxPulses, h]⟩
  · exact .inr ⟨by omega, by simp [expire, Config.wuMaxPulses, h]⟩

/-- `PULSE` answers a next state exactly in Pulsing (R138). -/
theorem pulseStep_eq_next {x : Chan} {s t : State} (h : pulseStep x s = .next t) :
    (s.chan x).wuState = .pulsing ∧ t = (wakePulse x s).setChan x (s.chan x).pulse := by
  unfold pulseStep at h
  split at h
  · injection h with h
    exact ⟨‹_›, h.symm⟩
  · cases h

/-! ## The transport -/

/-- What a transaction of any length can do (R97 (c)). -/
theorem clockedIn_eq_next {clocks : Nat} {sdi : BitVec 16} {s t : State} (h : clockedIn clocks sdi s = .next t) :
    (clocks = 16 ∧ exec (decodeSpi sdi) s = .next t) ∨ (clocks < 16 ∧ t = shortShift clocks sdi s) := by
  unfold clockedIn decodeClocks at h
  by_cases h1 : clocks < 16
  · simp only [h1, if_true] at h
    injection h with h
    exact .inr ⟨h1, h.symm⟩
  · by_cases h2 : 16 < clocks
    · simp only [h1, h2, if_true, if_false] at h
      cases h
    · simp only [h1, h2, if_false] at h
      exact .inl ⟨by omega, h⟩

/-- What an access under its status can do (R110, R115). -/
theorem access_eq_next {clocks : Nat} {sdi : BitVec 16} {st : SpiStatus} {s t : State}
    (h : access clocks sdi st s = .next t) :
    (∃ u ok, clockedIn clocks sdi s = .next u ∧ t = setExchange ok u) ∨
      t = setExchange false (spiShift s.spi.cmd s) := by
  unfold access at h
  split at h
  · obtain ⟨u, hu, ht⟩ := onNext_eq_next.mp h
    injection ht with ht
    exact .inl ⟨u, true, hu, ht.symm⟩
  · obtain ⟨u, hu, ht⟩ := onNext_eq_next.mp h
    injection ht with ht
    exact .inl ⟨u, false, hu, ht.symm⟩
  · injection h with h
    exact .inr h.symm

/-- Taking and giving back a free lock leaves it free (R211). -/
theorem releaseLock_acquireLock {s : State} (h : s.host.spiLock = false) (ok : Bool) :
    releaseLock (setExchange ok (acquireLock s)) = setExchange ok s := by
  obtain ⟨_, _, _, _, _, _, _, _, _, ⟨_, l, _, _, _, _⟩, _, _, _⟩ := s
  cases h
  rfl

/-- What a delivered transaction can do (R211, R264). -/
theorem deliverSpi_eq_next {clocks : Nat} {sdi : BitVec 16} {st : SpiStatus} {s t : State}
    (h : deliverSpi clocks sdi st s = .next t) :
    s.host.spiLock = false ∧ s.boot = .ready ∧
      ∃ u, access clocks sdi st (acquireLock s) = .next u ∧ t = releaseLock u := by
  unfold deliverSpi at h
  split at h
  · cases h
  · split at h
    · cases h
    · obtain ⟨u, hu, ht⟩ := onNext_eq_next.mp h
      injection ht with ht
      exact ⟨by simpa using ‹¬s.host.spiLock = true›, by simpa using ‹¬s.boot ≠ .ready›, u, hu, ht.symm⟩

/-- A transaction with status ok runs the decoded instruction under the lock (R110, R211). -/
theorem deliverSpi_ok {w : BitVec 16} {s : State} (hb : s.boot = .ready) (hl : s.host.spiLock = false) :
    deliverSpi 16 w .ok s =
      onNext (exec (decodeSpi w) (acquireLock s)) fun t => .next (releaseLock (setExchange true t)) := by
  simp [deliverSpi, hb, hl, access, clockedIn, decodeClocks, onNext_assoc]

/-- What one transaction of a host sequence can do: go on with the byte received, or return `BusError`. -/
theorem transact_eq_next {slot : Slot} {rw : BitVec 1} {a : RegAddr} {d : Byte} {st : SpiStatus}
    {k : Byte → State → State} {s t : State} (h : transact slot rw a d st k s = .next t) :
    ∃ u, deliverSpi 16 (accessWord rw a d s) st s = .next u ∧
      ((u.spi.exchangeOk = true ∧ t = k u.spi.sdoData u) ∨
        (u.spi.exchangeOk = false ∧ t = finish slot .busError u)) := by
  unfold transact at h
  obtain ⟨u, hu, ht⟩ := onNext_eq_next.mp h
  injection ht with ht
  refine ⟨u, hu, ?_⟩
  by_cases ho : u.spi.exchangeOk = true
  · exact .inl ⟨ho, by simpa [ho] using ht.symm⟩
  · exact .inr ⟨by simpa using ho, by simpa [ho] using ht.symm⟩

/-- What a call of a host sequence can do: it starts, in a slot that is free unless the call returns at once (R206, R211). -/
theorem hostCall_eq_next {caller : Nat} {c : HostCall} {s t : State} (h : hostCall caller c s = .next t) :
    startCall caller c s = .next t ∧ (c.atOnce = false → s.host.task (c.slot caller) = none) := by
  unfold hostCall at h
  by_cases hc : c.atOnce = true
  · rw [if_pos hc] at h
    exact ⟨h, fun hf => by rw [hc] at hf; cases hf⟩
  · rw [if_neg hc] at h
    split at h
    · exact ⟨h, fun _ => ‹_›⟩
    · cases h

/-- What a step of a running sequence can do: its wait is over, and its task acts (R200). -/
theorem hostStep_eq_next {slot : Slot} {st : SpiStatus} {s t : State} (h : hostStep slot st s = .next t) :
    ∃ task, s.host.task slot = some { task := task, wait := 0 } ∧ runTask slot task st s = .next t := by
  unfold hostStep at h
  split at h
  · cases h
  · rename_i r hr
    split at h
    · rename_i hw
      obtain ⟨task, wait⟩ := r
      cases hw
      exact ⟨task, hr, h⟩
    · cases h

/-! ## The step -/

/-- What a step can do: the urgent pulse, nothing, or the event at the head of the agenda. -/
theorem step_eq_next {s t : State} (h : step s = .next t) :
    (∃ x, pulseStep x s = .next t) ∨ (s.agenda = [] ∧ t = s) ∨
    (∃ e rest, s.agenda = e :: rest ∧ runEvent e { s with agenda := rest } = .next t) := by
  unfold step stepAgenda pulseFirst at h
  split at h
  · split at h
    · exact .inl ⟨_, h⟩
    · injection h with h
      exact .inr (.inl ⟨‹_›, h.symm⟩)
  · split at h
    · exact .inl ⟨_, h⟩
    · exact .inr (.inr ⟨_, _, ‹_›, h⟩)
  · exact .inr (.inr ⟨_, _, ‹_›, h⟩)

end Sys2Proof.Machine
end

