-- ==== Sys2Proof/Laws/Frame.lean ====
section
/-!
SUPPORT. What the block's operations leave alone: the environment inputs, the host side, the start-up sequence, the
parameters and the agenda; and the output trace is only appended to.
-/

namespace Sys2Proof.Machine

open Sys2Proof

/-- What no register access and no mode request touches: the environment inputs, the host, the start-up sequence, the
parameters and the agenda; and the output trace only grows (R33, R263). -/
structure Kept (s t : State) : Prop where
  env : t.env = s.env
  boot : t.boot = s.boot
  host : t.host = s.host
  params : t.params = s.params
  agenda : t.agenda = s.agenda
  out : ∃ es, t.out = s.out ++ es

theorem Kept.refl (s : State) : Kept s s := ⟨rfl, rfl, rfl, rfl, rfl, [], by simp⟩

theorem Kept.trans {s t u : State} (h : Kept s t) (k : Kept t u) : Kept s u := by
  obtain ⟨es, he⟩ := h.out
  obtain ⟨fs, hf⟩ := k.out
  exact ⟨k.env.trans h.env, k.boot.trans h.boot, k.host.trans h.host, k.params.trans h.params, k.agenda.trans h.agenda,
    es ++ fs, by rw [hf, he, List.append_assoc]⟩

/-- The same six fields. -/
theorem Kept.of_same {s t : State} (h1 : t.env = s.env) (h2 : t.boot = s.boot) (h3 : t.host = s.host)
    (h4 : t.params = s.params) (h5 : t.agenda = s.agenda) (h6 : t.out = s.out) : Kept s t :=
  ⟨h1, h2, h3, h4, h5, [], by simp [h6]⟩

theorem setChan_kept (x : Chan) (c : Channel) (s : State) : Kept s (s.setChan x c) := by
  cases x <;> exact .of_same rfl rfl rfl rfl rfl rfl

theorem setIrq_kept (m : Byte) (s : State) : Kept s (setIrq m s) := .of_same rfl rfl rfl rfl rfl rfl

theorem emit_kept (e : OutEvent) (s : State) : Kept s (emit e s) := ⟨rfl, rfl, rfl, rfl, rfl, [e], rfl⟩

theorem latchFault_kept (x : Chan) (k : CqErrFlag) (s : State) : Kept s (latchFault x k s) :=
  (setChan_kept x _ s).trans (setIrq_kept _ _)

theorem blockReset_kept (s : State) : Kept s (blockReset s) := .of_same rfl rfl rfl rfl rfl rfl

theorem spiShift_kept (cmd : Byte) (s : State) : Kept s (spiShift cmd s) := .of_same rfl rfl rfl rfl rfl rfl

theorem cqCtrlTriggers_kept (x : Chan) (v : Byte) (s : State) : Kept s (cqCtrlTriggers x v s) := by
  have h1 := setChan_kept x { s.chan x with cqctrl := v &&& cqCtrlStore } s
  unfold cqCtrlTriggers
  dsimp only
  split <;> split <;> split <;>
    first
    | exact ((h1.trans (setChan_kept _ _ _)).trans (setChan_kept _ _ _)).trans (emit_kept _ _)
    | exact (h1.trans (setChan_kept _ _ _)).trans (setChan_kept _ _ _)
    | exact (h1.trans (setChan_kept _ _ _)).trans (emit_kept _ _)
    | exact h1.trans (setChan_kept _ _ _)
    | exact h1.trans (emit_kept _ _)
    | exact h1

theorem cqSend_kept {x : Chan} {s t : State} (h : cqSend x s = .next t) : Kept s t := by
  rcases cqSend_eq_next h with ⟨-, rfl⟩ | ⟨-, -, -, rfl⟩ | ⟨-, -, -, rfl⟩
  · exact .refl _
  · exact latchFault_kept _ _ _
  · rcases sendLoaded_cases x s with ⟨-, -, e⟩ | ⟨u, hu, e⟩ <;> rw [e]
    · exact (latchFault_kept _ _ _).trans (setChan_kept _ _ _)
    · have hk : Kept s u := by
        rcases hu with rfl | rfl
        · exact .refl _
        · exact latchFault_kept _ _ _
      exact (hk.trans (emit_kept _ _)).trans (setChan_kept _ _ _)

/-- A register write keeps them. -/
theorem regWrite_kept {r : Reg} {v : Byte} {s t : State} (h : regWrite r v s = .next t) : Kept s t := by
  rcases r with ⟨x⟩ | _ | _ | ⟨x⟩ | ⟨x⟩ | ⟨x⟩ | ⟨x⟩ | ⟨x⟩ | ⟨r⟩ | _ | _
  case txRxData =>
    injection h with e
    rcases txPush_cases x v s with ⟨-, e2⟩ | ⟨-, e2⟩ <;> rw [← e, e2]
    · exact setChan_kept _ _ _
    · exact latchFault_kept _ _ _
  case cqCtrl =>
    rcases writeCqCtrl_eq_next h with ⟨-, rfl⟩ | ⟨-, hs⟩
    · exact cqCtrlTriggers_kept x v s
    · exact (cqCtrlTriggers_kept x v s).trans (cqSend_kept hs)
  case msgCtrl => injection h with e; rw [← e]; exact setChan_kept _ _ _
  case chanStat =>
    injection h with e
    rw [← e]
    unfold writeChanStat
    split
    · exact blockReset_kept s
    · exact setChan_kept _ _ _
  all_goals injection h with e; rw [← e]; exact .of_same rfl rfl rfl rfl rfl rfl

/-- A register read keeps them. -/
theorem regRead_kept (r : Reg) (s : State) : Kept s (regRead r s).2 := by
  rcases r with ⟨x⟩ | _ | _ | ⟨x⟩ | ⟨x⟩ | ⟨x⟩ | ⟨x⟩ | ⟨x⟩ | ⟨r⟩ | _ | _
  case txRxData =>
    rcases rxPop_cases x s with ⟨-, e⟩ | ⟨b, rest, -, e⟩
    · rw [show regRead (.txRxData x) s = rxPop x s from rfl, e]; exact .of_same rfl rfl rfl rfl rfl rfl
    · rw [show regRead (.txRxData x) s = rxPop x s from rfl, e]; exact setChan_kept _ _ _
  case cqErr => exact setChan_kept _ _ _
  all_goals exact .of_same rfl rfl rfl rfl rfl rfl

/-- An instruction the decoder answers keeps them. -/
theorem exec_decode_kept (f : Frame) {s t : State} (h : exec (decode f) s = .next t) : Kept s t := by
  cases f with
  | spi16 w =>
    simp only [decode, decodeSpi] at h
    split at h
    · rw [exec_readInstr] at h
      by_cases hc : fieldChip w = s.params.chipAddr
      · rw [spiRead_own hc] at h
        injection h with e
        rw [← e]
        exact ((spiShift_kept _ s).trans (regRead_kept _ _)).trans (.of_same rfl rfl rfl rfl rfl rfl)
      · rw [spiRead_other hc] at h
        injection h with e
        rw [← e]
        exact spiShift_kept _ s
    · rw [exec_writeInstr] at h
      rcases spiWrite_eq_next h with ⟨-, h1⟩ | ⟨-, rfl⟩
      · exact (spiShift_kept _ s).trans (regWrite_kept h1)
      · exact spiShift_kept _ s
  | cmd3 w =>
    simp only [decode, decodeCmd3, modeInstr] at h
    split at h
    case h_4 => cases h
    all_goals injection h with e; rw [← e]; exact setChan_kept _ _ _

/-! ## Events -/

theorem clearWurq_kept (s : State) : Kept s (clearWurq s) := .of_same rfl rfl rfl rfl rfl rfl

theorem detect_kept (x : Chan) (s : State) : Kept s (detect x s) := by
  unfold detect
  dsimp only
  exact (emit_kept _ s).trans (setChan_kept x _ _)

theorem expire_kept (x : Chan) (s : State) : Kept s (expire x s) := by
  rcases expire_cases x s with ⟨-, e⟩ | ⟨-, e⟩ <;> rw [e]
  · exact setChan_kept _ _ _
  · exact (emit_kept _ s).trans (setChan_kept x _ _)

theorem tickChan_kept (x : Chan) (s : State) : Kept s (tickChan x s) := by
  rcases tickChan_cases x s with ⟨-, e⟩ | ⟨-, -, e⟩ | ⟨-, -, -, e⟩ | ⟨-, -, -, e⟩ <;> rw [e]
  · exact .refl s
  · exact ((setChan_kept x _ s).trans (clearWurq_kept _)).trans (detect_kept x _)
  · exact (setChan_kept x _ s).trans (expire_kept x _)
  · exact setChan_kept _ _ _

/-- The sequencers' part of a tick keeps them; the waits of the host and of the start-up sequence are the rest of it. -/
theorem tickSequencers_kept (s : State) : Kept s (tickSequencers s) := (tickChan_kept .a s).trans (tickChan_kept .b _)

theorem pulseStep_kept {x : Chan} {s t : State} (h : pulseStep x s = .next t) : Kept s t := by
  obtain ⟨-, rfl⟩ := pulseStep_eq_next h
  exact (emit_kept (.wakePulse x) s).trans (setChan_kept x _ _)

theorem latchUnless_kept (b : Bool) (x : Chan) (k : CqErrFlag) (s : State) :
    Kept s (if b = true then s else latchFault x k s) := by
  split
  · exact .refl s
  · exact latchFault_kept _ _ _

theorem lineRxChar_kept (x : Chan) (b : Byte) (p f : Bool) (s : State) : Kept s (lineRxChar x b p f s) := by
  unfold lineRxChar
  split
  · exact .refl s
  · dsimp only
    refine (setChan_kept x { s.chan x with rxmsg := (s.chan x).rxmsg ++ [b] } s).trans ?_
    generalize s.setChan x { s.chan x with rxmsg := (s.chan x).rxmsg ++ [b] } = s1
    refine ((latchUnless_kept p x .parity s1).trans (latchUnless_kept f x .frame _)).trans ?_
    generalize (if f = true then _ else _) = s3
    split
    · exact setChan_kept _ _ _
    · exact latchFault_kept _ _ _

theorem lineRxEnd_kept (x : Chan) (s : State) : Kept s (lineRxEnd x s) := by
  unfold lineRxEnd
  dsimp only
  split
  · split
    · exact (latchFault_kept x .rxChecksum s).trans ((setIrq_kept _ _).trans (setChan_kept x _ _))
    · exact (setIrq_kept _ s).trans (setChan_kept x _ _)
  · exact .refl s

theorem lineNoReply_kept (x : Chan) (s : State) : Kept s (lineNoReply x s) := by
  unfold lineNoReply
  dsimp only
  split
  · exact (latchFault_kept x .transmission s).trans (setChan_kept x _ _)
  · exact .refl s

/-- A delivered transaction keeps them: the lock is free before it and after it (R211). -/
theorem deliverSpi_kept {clocks : Nat} {sdi : BitVec 16} {st : SpiStatus} {s t : State}
    (h : deliverSpi clocks sdi st s = .next t) : Kept s t := by
  obtain ⟨hl, -, u, hu, rfl⟩ := deliverSpi_eq_next h
  have key : ∀ w, clockedIn clocks sdi (acquireLock s) = .next w → Kept (acquireLock s) w := by
    intro w hw
    rcases clockedIn_eq_next hw with ⟨-, he⟩ | ⟨-, rfl⟩
    · exact exec_decode_kept (.spi16 sdi) he
    · exact spiShift_kept _ _
  have hk : Kept (acquireLock s) u := by
    rcases access_eq_next hu with ⟨w, ok, hw, rfl⟩ | rfl
    · exact (key w hw).trans (.of_same rfl rfl rfl rfl rfl rfl)
    · exact .of_same rfl rfl rfl rfl rfl rfl
  have hh : (releaseLock (acquireLock s)).host = s.host := by
    have := congrArg State.host (releaseLock_acquireLock hl true)
    exact this
  refine ⟨hk.env, hk.boot, ?_, hk.params, hk.agenda, hk.out⟩
  rw [← hh]
  simp only [releaseLock, hk.host]

end Sys2Proof.Machine
end

