-- ==== Sys2Proof/Laws/Invariant.lean ====
section
/-!
SUPPORT. Each shared operation keeps the block's invariant (`State.BlockInv` of Safety.lean).
-/

namespace Sys2Proof.Machine

open Sys2Proof

/-! ## Channels -/

/-- The reset values of a channel meet R36, whatever the three unspecified ones are. -/
theorem resetWith_inv (m : Mode) (sp : BitVec 2) (b : Nat) : (Channel.resetWith m sp b).Inv := by
  constructor <;> simp [Channel.resetWith]

/-- A record with the same sequencer, FIFO bounds and stored control bits meets R36 too. -/
theorem Channel.Inv.of_same {c d : Channel} (h : c.Inv) (htx : d.txfifo.length ≤ 64) (hrx : d.rxfifo.length ≤ 64)
    (hc : d.cqctrl &&& 0x1D = 0) (hs : d.wuState = c.wuState) (hp : d.wuPulses = c.wuPulses) (ht : d.wuTimer = c.wuTimer)
    (hr : d.wuRestart = c.wuRestart) (hv : d.comValid = c.comValid)
    (hm : d.mode = c.mode) : d.Inv where
  tx_len := htx
  rx_len := hrx
  ctrl_stored := hc
  pulses_le := by rw [hp]; exact h.pulses_le
  awaiting_pulses := by rw [hs, hp]; exact h.awaiting_pulses
  idle_pulses := by rw [hs, hp]; exact h.idle_pulses
  idle_mode := by rw [hs, hm]; exact h.idle_mode
  pulsing_pulses := by rw [hs, hp]; exact h.pulsing_pulses
  awaiting_timer := by rw [hs, ht]; exact h.awaiting_timer
  timer_le := by rw [hp, ht]; exact h.timer_le
  established_valid := by rw [hs, hv]; exact h.established_valid
  restart_running := by rw [hs, hr]; exact h.restart_running

theorem goIdle_inv {c : Channel} (h : c.Inv) : c.goIdle.Inv := by
  refine ⟨h.tx_len, h.rx_len, h.ctrl_stored, ?_, ?_, ?_, ?_, ?_, ?_, ?_, ?_, ?_⟩ <;> simp [Channel.goIdle]

/-- A mode request keeps R36 in every state of the sequencer (R132 to R137). -/
theorem modeRequest_inv_chan (m : Mode) {c : Channel} (h : c.Inv) : (c.modeRequest m).Inv := by
  have h1 := h.tx_len
  have h2 := h.rx_len
  have h3 := h.ctrl_stored
  unfold Channel.modeRequest
  split
  · rename_i hs
    have hp := h.idle_pulses hs
    have ht := h.timer_le
    have hr : c.wuRestart = false := by
      cases hc : c.wuRestart with
      | false => rfl
      | true => rcases h.restart_running hc with e | e <;> rw [hs] at e <;> cases e
    unfold Channel.setModeIdle
    split
    · constructor <;> simp_all [Config.wuWindow]
    · constructor <;> simp_all [Config.wuWindow]
  · rename_i hs
    unfold Channel.setModeEstablished
    split
    · exact goIdle_inv h
    · constructor <;> simp_all [h.pulses_le, h.timer_le, h.established_valid]
      cases hr : c.wuRestart with
      | false => rfl
      | true => rcases h.restart_running hr with e | e <;> rw [hs] at e <;> cases e
  · rename_i hs
    constructor <;> simp_all [Channel.setModeQueued, h.pulses_le, h.pulsing_pulses hs, h.timer_le]
  · rename_i hs
    constructor <;> simp_all [Channel.setModeQueued, h.pulses_le, h.awaiting_pulses hs, h.awaiting_timer hs, h.timer_le]
  · rename_i hs
    have hr : c.wuRestart = false := by
      cases hc : c.wuRestart with
      | false => rfl
      | true => rcases h.restart_running hc with e | e <;> rw [hs] at e <;> cases e
    unfold Channel.setModeFailed
    dsimp only
    split
    · constructor <;> simp_all [Channel.goIdle, Config.wuWindow]
    · rename_i hm
      rw [Channel.setModeIdle, if_neg hm]
      constructor <;> simp_all [Config.wuWindow]

/-- The window of a pulse 1 to 5 is at least 10 ms (R4). -/
theorem wuWindow_pos {k : Nat} (h1 : 1 ≤ k) (h5 : k ≤ 5) : 10 ≤ Config.wuWindow k := by
  interval_cases k <;> simp [Config.wuWindow]

/-- A pulse keeps R36 (R138, R143). -/
theorem pulse_inv_chan {c : Channel} (h : c.Inv) (hs : c.wuState = .pulsing) : c.pulse.Inv := by
  have hp := h.pulsing_pulses hs
  have hw := wuWindow_pos (k := c.wuPulses + 1) (by omega) (by omega)
  refine ⟨h.tx_len, h.rx_len, h.ctrl_stored, ?_, ?_, ?_, ?_, ?_, ?_, ?_, ?_, ?_⟩ <;> simp [Channel.pulse]
  all_goals omega

/-- A resolved sequence replays its queued request into a state that meets R36 (R142): `c` is Established or Failed with
`wu_timer` at 0 and may still hold a queued request. -/
theorem replay_inv {c : Channel} (h1 : c.txfifo.length ≤ 64) (h2 : c.rxfifo.length ≤ 64) (h3 : c.cqctrl &&& 0x1D = 0)
    (hp : c.wuPulses ≤ 5) (ht : c.wuTimer = 0)
    (hs : (c.wuState = .established ∧ c.comValid = true) ∨ c.wuState = .failed) : c.replay.Inv := by
  have base : ({ c with wuRestart := false } : Channel).Inv := by
    rcases hs with ⟨e, v⟩ | e <;> constructor <;> simp_all
  unfold Channel.replay
  split
  · exact modeRequest_inv_chan _ base
  · rename_i hr
    have : ({ c with wuRestart := false } : Channel) = c := by
      cases c
      simp_all
    rwa [this] at base

/-! ## The state -/

theorem State.BlockInv.chan {s : State} (h : s.BlockInv) (x : Chan) : (s.chan x).Inv := by
  cases x
  · exact h.chA
  · exact h.chB

theorem State.BlockInv.setChan {s : State} (h : s.BlockInv) (x : Chan) {c : Channel} (hc : c.Inv) : (s.setChan x c).BlockInv := by
  cases x
  · exact ⟨hc, h.chB, h.phase⟩
  · exact ⟨h.chA, hc, h.phase⟩

/-- A state with the same channels, phase and lock meets the invariant too. -/
theorem State.BlockInv.of_same {s t : State} (h : s.BlockInv) (ha : t.chA = s.chA) (hb : t.chB = s.chB)
    (hp : t.spi.phase = s.spi.phase) : t.BlockInv :=
  ⟨ha ▸ h.chA, hb ▸ h.chB, hp.trans h.phase⟩

theorem emit_inv (e : OutEvent) {s : State} (h : s.BlockInv) : (emit e s).BlockInv := h.of_same rfl rfl rfl
theorem setIrq_inv (m : Byte) {s : State} (h : s.BlockInv) : (setIrq m s).BlockInv := h.of_same rfl rfl rfl
theorem clearWurq_inv {s : State} (h : s.BlockInv) : (clearWurq s).BlockInv := h.of_same rfl rfl rfl

theorem latchFault_inv (x : Chan) (k : CqErrFlag) {s : State} (h : s.BlockInv) : (latchFault x k s).BlockInv :=
  have hc := h.chan x
  setIrq_inv _ (h.setChan x (hc.of_same hc.tx_len hc.rx_len hc.ctrl_stored rfl rfl rfl rfl rfl rfl))

theorem txPush_inv (x : Chan) (v : Byte) {s : State} (h : s.BlockInv) : (txPush x v s).BlockInv := by
  have hc := h.chan x
  rcases txPush_cases x v s with ⟨hl, e⟩ | ⟨-, e⟩ <;> rw [e]
  · exact h.setChan x (hc.of_same (by simp; omega) hc.rx_len hc.ctrl_stored rfl rfl rfl rfl rfl rfl)
  · exact latchFault_inv _ _ h

theorem rxPop_inv (x : Chan) {s : State} (h : s.BlockInv) : (rxPop x s).2.BlockInv := by
  have hc := h.chan x
  rcases rxPop_cases x s with ⟨-, e⟩ | ⟨b, rest, hr, e⟩ <;> rw [e]
  · exact h.of_same rfl rfl rfl
  · have := hc.rx_len
    rw [hr] at this
    exact h.setChan x (hc.of_same hc.tx_len (by simp at this ⊢; omega) hc.ctrl_stored rfl rfl rfl rfl rfl rfl)

theorem readInterrupt_inv {s : State} (h : s.BlockInv) : (readInterrupt s).2.BlockInv := h.of_same rfl rfl rfl

theorem readCqErr_inv (x : Chan) {s : State} (h : s.BlockInv) : (readCqErr x s).2.BlockInv :=
  have hc := h.chan x
  h.setChan x (hc.of_same hc.tx_len hc.rx_len hc.ctrl_stored rfl rfl rfl rfl rfl rfl)

theorem setMsgCtrl_inv (x : Chan) (v : Byte) {s : State} (h : s.BlockInv) : (setMsgCtrl x v s).BlockInv :=
  have hc := h.chan x
  h.setChan x (hc.of_same hc.tx_len hc.rx_len hc.ctrl_stored rfl rfl rfl rfl rfl rfl)

theorem blockReset_inv (s : State) : (blockReset s).BlockInv :=
  ⟨resetWith_inv _ _ _, resetWith_inv _ _ _, rfl⟩

theorem writeChanStat_inv (x : Chan) (v : Byte) {s : State} (h : s.BlockInv) : (writeChanStat x v s).BlockInv := by
  have hc := h.chan x
  unfold writeChanStat
  split
  · exact blockReset_inv s
  · exact h.setChan x (hc.of_same hc.tx_len hc.rx_len hc.ctrl_stored rfl rfl rfl rfl rfl rfl)

/-- The stored bits of CQCtrl keep clear of the trigger bits (R21, R36 (ii)). -/
theorem cqCtrlStore_triggers (v : Byte) : (v &&& cqCtrlStore) &&& 0x1D = 0 := by
  rw [BitVec.and_assoc]
  simp [cqCtrlStore]

theorem txFifoReset_inv (x : Chan) {s : State} (h : s.BlockInv) : (txFifoReset x s).BlockInv :=
  have hc := h.chan x
  h.setChan x (hc.of_same (by simp) hc.rx_len hc.ctrl_stored rfl rfl rfl rfl rfl rfl)

theorem rxFifoReset_inv (x : Chan) {s : State} (h : s.BlockInv) : (rxFifoReset x s).BlockInv :=
  have hc := h.chan x
  h.setChan x (hc.of_same hc.tx_len (by simp) hc.ctrl_stored rfl rfl rfl rfl rfl rfl)

theorem cqCtrlTriggers_inv (x : Chan) (v : Byte) {s : State} (h : s.BlockInv) : (cqCtrlTriggers x v s).BlockInv := by
  have hc := h.chan x
  have h1 : (s.setChan x { s.chan x with cqctrl := v &&& cqCtrlStore }).BlockInv :=
    h.setChan x (hc.of_same hc.tx_len hc.rx_len (cqCtrlStore_triggers v) rfl rfl rfl rfl rfl rfl)
  unfold cqCtrlTriggers
  dsimp only
  split <;> split <;> split <;>
    first
    | exact emit_inv _ (txFifoReset_inv x (rxFifoReset_inv x h1))
    | exact txFifoReset_inv x (rxFifoReset_inv x h1)
    | exact emit_inv _ (rxFifoReset_inv x h1)
    | exact rxFifoReset_inv x h1
    | exact emit_inv _ (txFifoReset_inv x h1)
    | exact txFifoReset_inv x h1
    | exact emit_inv _ h1
    | exact h1

theorem sendLoaded_inv (x : Chan) {s : State} (h : s.BlockInv) : (sendLoaded x s).BlockInv := by
  rcases sendLoaded_cases x s with ⟨-, -, e⟩ | ⟨u, hu, e⟩ <;> rw [e]
  · have h1 := latchFault_inv x .txChecksum h
    have hc := h1.chan x
    exact h1.setChan x (hc.of_same (by simp) hc.rx_len hc.ctrl_stored rfl rfl rfl rfl rfl rfl)
  · have h1 : u.BlockInv := by
      rcases hu with rfl | rfl
      · exact h
      · exact latchFault_inv x _ h
    have hc := h1.chan x
    refine State.BlockInv.setChan (emit_inv _ h1) x (hc.of_same ?_ hc.rx_len hc.ctrl_stored rfl rfl rfl rfl rfl rfl)
    dsimp only
    split
    · exact (h.chan x).tx_len
    · simp

theorem cqSend_inv {x : Chan} {s t : State} (h : s.BlockInv) (ht : cqSend x s = .next t) : t.BlockInv := by
  rcases cqSend_eq_next ht with ⟨-, rfl⟩ | ⟨-, -, -, rfl⟩ | ⟨-, -, -, rfl⟩
  · exact h
  · exact latchFault_inv _ _ h
  · exact sendLoaded_inv x h

theorem writeCqCtrl_inv {x : Chan} {v : Byte} {s t : State} (h : s.BlockInv) (ht : writeCqCtrl x v s = .next t) : t.BlockInv := by
  rcases writeCqCtrl_eq_next ht with ⟨-, rfl⟩ | ⟨-, hs⟩
  · exact cqCtrlTriggers_inv x v h
  · exact cqSend_inv (cqCtrlTriggers_inv x v h) hs

theorem lineRxChar_inv (x : Chan) (b : Byte) (p f : Bool) {s : State} (h : s.BlockInv) : (lineRxChar x b p f s).BlockInv := by
  have hc := h.chan x
  unfold lineRxChar
  split
  · exact h
  · dsimp only
    have h1 : (s.setChan x { s.chan x with rxmsg := (s.chan x).rxmsg ++ [b] }).BlockInv :=
      h.setChan x (hc.of_same hc.tx_len hc.rx_len hc.ctrl_stored rfl rfl rfl rfl rfl rfl)
    generalize s.setChan x { s.chan x with rxmsg := (s.chan x).rxmsg ++ [b] } = s1 at h1
    have h2 : (if p = true then s1 else latchFault x .parity s1).BlockInv := by
      split
      · exact h1
      · exact latchFault_inv _ _ h1
    generalize (if p = true then s1 else latchFault x .parity s1) = s2 at h2
    have h3 : (if f = true then s2 else latchFault x .frame s2).BlockInv := by
      split
      · exact h2
      · exact latchFault_inv _ _ h2
    generalize (if f = true then s2 else latchFault x .frame s2) = s3 at h3
    have hc3 := h3.chan x
    split
    · rename_i hr
      have : (s3.chan x).rxfifo.length < 64 := of_decide_eq_true hr
      exact h3.setChan x (hc3.of_same hc3.tx_len (by simp [fifoPush]; omega) hc3.ctrl_stored rfl rfl rfl rfl rfl rfl)
    · exact latchFault_inv _ _ h3

/-- Only the transfer state changes. -/
theorem setXfer_inv (x : Chan) (v : Xfer) {s : State} (h : s.BlockInv) : (s.setChan x { s.chan x with xfer := v }).BlockInv :=
  have hc := h.chan x
  h.setChan x (hc.of_same hc.tx_len hc.rx_len hc.ctrl_stored rfl rfl rfl rfl rfl rfl)

theorem lineRxEnd_inv (x : Chan) {s : State} (h : s.BlockInv) : (lineRxEnd x s).BlockInv := by
  unfold lineRxEnd
  dsimp only
  split
  · refine setXfer_inv x .xIdle (setIrq_inv _ ?_)
    split
    · exact latchFault_inv _ _ h
    · exact h
  · exact h

theorem lineNoReply_inv (x : Chan) {s : State} (h : s.BlockInv) : (lineNoReply x s).BlockInv := by
  unfold lineNoReply
  dsimp only
  split
  · exact setXfer_inv x .xIdle (latchFault_inv _ _ h)
  · exact h

theorem modeRequest_inv (x : Chan) (m : Mode) {s : State} (h : s.BlockInv) : (modeRequest x m s).BlockInv :=
  h.setChan x (modeRequest_inv_chan m (h.chan x))

theorem pulseStep_inv {x : Chan} {s t : State} (h : s.BlockInv) (ht : pulseStep x s = .next t) : t.BlockInv := by
  obtain ⟨hp, rfl⟩ := pulseStep_eq_next ht
  exact State.BlockInv.setChan (emit_inv _ h) x (pulse_inv_chan (h.chan x) hp)

theorem tickChan_inv (x : Chan) {s : State} (h : s.BlockInv) : (tickChan x s).BlockInv := by
  have hc := h.chan x
  rcases tickChan_cases x s with ⟨-, e⟩ | ⟨ha, -, e⟩ | ⟨ha, -, ht, e⟩ | ⟨ha, -, ht, e⟩ <;> rw [e]
  · exact h
  · unfold detect
    dsimp only
    cases x
    · exact ⟨replay_inv hc.tx_len hc.rx_len hc.ctrl_stored hc.pulses_le rfl (.inl ⟨rfl, rfl⟩), h.chB, h.phase⟩
    · exact ⟨h.chA, replay_inv hc.tx_len hc.rx_len hc.ctrl_stored hc.pulses_le rfl (.inl ⟨rfl, rfl⟩), h.phase⟩
  · generalize hs1 : s.setChan x { s.chan x with wuTimer := (s.chan x).wuTimer - 1 } = s1
    have hcx : s1.chan x = { s.chan x with wuTimer := (s.chan x).wuTimer - 1 } := by rw [← hs1]; simp
    have hr1 := hc.restart_running
    have hco : s1.chan x.other = s.chan x.other := by rw [← hs1]; simp
    have base : ∀ c : Channel, c.Inv → (s1.setChan x c).BlockInv := by
      intro c hcc
      rw [← hs1, setChan_setChan]
      exact h.setChan x hcc
    rcases expire_cases x s1 with ⟨hp, e2⟩ | ⟨hp, e2⟩ <;> rw [e2]
    · rw [hcx] at hp ⊢
      change (s.chan x).wuPulses < 5 at hp
      refine base _ ?_
      have h5 := hc.pulses_le
      have h4 := hc.timer_le
      refine ⟨hc.tx_len, hc.rx_len, hc.ctrl_stored, h5, ?_, ?_, ?_, ?_, ?_, ?_, ?_, ?_⟩ <;> simp
      all_goals omega
    · rw [hcx] at hp ⊢
      have : ∀ c : Channel, c.Inv → ((emit (.wakeUpTimeout x) s1).setChan x c).BlockInv := by
        intro c hcc
        exact (base c hcc).of_same (by cases x <;> rfl) (by cases x <;> rfl) (by cases x <;> rfl)
      exact this _ (replay_inv hc.tx_len hc.rx_len hc.ctrl_stored hc.pulses_le ht (.inr rfl))
  · refine h.setChan x ?_
    have h1 := hc.timer_le
    have h2 := hc.restart_running
    have h3 := hc.awaiting_pulses ha
    refine ⟨hc.tx_len, hc.rx_len, hc.ctrl_stored, hc.pulses_le, ?_, ?_, ?_, ?_, ?_, ?_, ?_, ?_⟩ <;> simp [ha]
    all_goals omega

theorem tickSequencers_inv {s : State} (h : s.BlockInv) : (tickSequencers s).BlockInv := tickChan_inv .b (tickChan_inv .a h)

theorem spiShift_inv (cmd : Byte) {s : State} (h : s.BlockInv) : (spiShift cmd s).BlockInv := h.of_same rfl rfl h.phase.symm

theorem become_inv (slot : Slot) (t : Task) (n : Nat) {s : State} (h : s.BlockInv) : (become slot t n s).BlockInv :=
  h.of_same rfl rfl rfl

theorem finish_inv (slot : Slot) (r : HostResult) {s : State} (h : s.BlockInv) : (finish slot r s).BlockInv :=
  h.of_same rfl rfl rfl

/-! ## Register accesses and instructions -/

/-- A register write keeps the invariant (R111). -/
theorem regWrite_inv {r : Reg} {v : Byte} {s t : State} (h : s.BlockInv) (ht : regWrite r v s = .next t) : t.BlockInv := by
  cases r with
  | txRxData x => injection ht with e; subst e; exact txPush_inv _ _ h
  | cqCtrl x => exact writeCqCtrl_inv h ht
  | msgCtrl x => injection ht with e; subst e; exact setMsgCtrl_inv _ _ h
  | chanStat x => injection ht with e; subst e; exact writeChanStat_inv _ _ h
  | store r => injection ht with e; subst e; exact h.of_same rfl rfl rfl
  | interruptEn => injection ht with e; subst e; exact h.of_same rfl rfl rfl
  | _ => injection ht with e; subst e; exact h

/-- A register read keeps the invariant (R112). -/
theorem regRead_inv (r : Reg) {s : State} (h : s.BlockInv) : (regRead r s).2.BlockInv := by
  cases r with
  | txRxData x => exact rxPop_inv _ h
  | interrupt => exact readInterrupt_inv h
  | cqErr x => exact readCqErr_inv _ h
  | _ => exact h

/-- A write transaction keeps the invariant if its access does. -/
theorem spiWrite_inv {chip : ChipAddr} {addr : RegAddr} {act : State → Outcome} {s t : State} (h : s.BlockInv)
    (ha : ∀ u w : State, u.BlockInv → act u = .next w → w.BlockInv) (ht : spiWrite chip addr act s = .next t) : t.BlockInv := by
  rcases spiWrite_eq_next ht with ⟨-, h1⟩ | ⟨-, rfl⟩
  · exact ha _ _ (spiShift_inv _ h) h1
  · exact spiShift_inv _ h

/-- A read transaction keeps the invariant if its access does. -/
theorem spiRead_inv {chip : ChipAddr} {addr : RegAddr} {act : State → Byte × State} {s t : State} (h : s.BlockInv)
    (ha : ∀ u : State, u.BlockInv → (act u).2.BlockInv) (ht : spiRead chip addr act s = .next t) : t.BlockInv := by
  by_cases hc : chip = s.params.chipAddr
  · rw [spiRead_own hc] at ht
    injection ht with e
    subst e
    exact (ha _ (spiShift_inv _ h)).of_same rfl rfl rfl
  · rw [spiRead_other hc] at ht
    injection ht with e
    subst e
    exact spiShift_inv _ h

/-- An instruction the decoder answers keeps the invariant. -/
theorem exec_decode_inv (f : Frame) {s t : State} (h : s.BlockInv) (ht : exec (decode f) s = .next t) : t.BlockInv := by
  cases f with
  | spi16 w =>
    simp only [decode, decodeSpi] at ht
    split at ht
    · rw [exec_readInstr] at ht
      exact spiRead_inv h (fun _ hu => regRead_inv _ hu) ht
    · rw [exec_writeInstr] at ht
      exact spiWrite_inv h (fun _ _ hu hw => regWrite_inv hu hw) ht
  | cmd3 w =>
    simp only [decode, decodeCmd3, modeInstr] at ht
    split at ht
    case h_4 => cases ht
    all_goals injection ht with e; rw [← e]; exact modeRequest_inv _ _ h

end Sys2Proof.Machine
end

