-- ==== Sys2Proof/Laws/PerInstr.lean ====
section
/-!
SUPPORT. A statement about every instruction: its encoding has the bits that its row of spec/opcode_table.json fixes
(30_encoding.md R95, R96). The rows' masks and matches are copied from the table, not computed.
-/

namespace Sys2Proof.Laws

open Sys2Proof

/-- The bits a row of the opcode table fixes: mask and match, of an `SPI16` word or of a `CMD3` word. -/
inductive TableRow where
  | spi16 (mask pattern : BitVec 16)
  | cmd3 (mask pattern : BitVec 3)

/-- Does a frame have a row's fixed bits? -/
def TableRow.Fits : TableRow → Frame → Prop
  | .spi16 mask pattern, .spi16 w => w &&& mask = pattern
  | .cmd3 mask pattern, .cmd3 w => w &&& mask = pattern
  | .spi16 _ _, .cmd3 _ => False
  | .cmd3 _ _, .spi16 _ => False

/-- The row of an instruction. -/
def tableRow : Instr → TableRow
  | .wr _ _ _ => .spi16 0x8000#16 0x0#16
  | .rd _ _ _ => .spi16 0x8000#16 0x8000#16
  | .wrTxRxDataA _ _ => .spi16 0x9F00#16 0x0#16
  | .rdTxRxDataA _ _ => .spi16 0x9F00#16 0x8000#16
  | .wrTxRxDataB _ _ => .spi16 0x9F00#16 0x100#16
  | .rdTxRxDataB _ _ => .spi16 0x9F00#16 0x8100#16
  | .wrInterrupt _ _ => .spi16 0x9F00#16 0x200#16
  | .rdInterrupt _ _ => .spi16 0x9F00#16 0x8200#16
  | .wrInterruptEn _ _ => .spi16 0x9F00#16 0x300#16
  | .rdInterruptEn _ _ => .spi16 0x9F00#16 0x8300#16
  | .wrRxFIFOLvlA _ _ => .spi16 0x9F00#16 0x400#16
  | .rdRxFIFOLvlA _ _ => .spi16 0x9F00#16 0x8400#16
  | .wrRxFIFOLvlB _ _ => .spi16 0x9F00#16 0x500#16
  | .rdRxFIFOLvlB _ _ => .spi16 0x9F00#16 0x8500#16
  | .wrCQCtrlA _ _ => .spi16 0x9F00#16 0x600#16
  | .rdCQCtrlA _ _ => .spi16 0x9F00#16 0x8600#16
  | .wrCQCtrlB _ _ => .spi16 0x9F00#16 0x700#16
  | .rdCQCtrlB _ _ => .spi16 0x9F00#16 0x8700#16
  | .wrCQErrA _ _ => .spi16 0x9F00#16 0x800#16
  | .rdCQErrA _ _ => .spi16 0x9F00#16 0x8800#16
  | .wrCQErrB _ _ => .spi16 0x9F00#16 0x900#16
  | .rdCQErrB _ _ => .spi16 0x9F00#16 0x8900#16
  | .wrMsgCtrlA _ _ => .spi16 0x9F00#16 0xA00#16
  | .rdMsgCtrlA _ _ => .spi16 0x9F00#16 0x8A00#16
  | .wrMsgCtrlB _ _ => .spi16 0x9F00#16 0xB00#16
  | .rdMsgCtrlB _ _ => .spi16 0x9F00#16 0x8B00#16
  | .wrChanStatA _ _ => .spi16 0x9F00#16 0xC00#16
  | .rdChanStatA _ _ => .spi16 0x9F00#16 0x8C00#16
  | .wrChanStatB _ _ => .spi16 0x9F00#16 0xD00#16
  | .rdChanStatB _ _ => .spi16 0x9F00#16 0x8D00#16
  | .wrLEDCtrl _ _ => .spi16 0x9F00#16 0xE00#16
  | .rdLEDCtrl _ _ => .spi16 0x9F00#16 0x8E00#16
  | .wrTrigger _ _ => .spi16 0x9F00#16 0xF00#16
  | .rdTrigger _ _ => .spi16 0x9F00#16 0x8F00#16
  | .wrCQCfgA _ _ => .spi16 0x9F00#16 0x1000#16
  | .rdCQCfgA _ _ => .spi16 0x9F00#16 0x9000#16
  | .wrCQCfgB _ _ => .spi16 0x9F00#16 0x1100#16
  | .rdCQCfgB _ _ => .spi16 0x9F00#16 0x9100#16
  | .wrCyclTmrA _ _ => .spi16 0x9F00#16 0x1200#16
  | .rdCyclTmrA _ _ => .spi16 0x9F00#16 0x9200#16
  | .wrCyclTmrB _ _ => .spi16 0x9F00#16 0x1300#16
  | .rdCyclTmrB _ _ => .spi16 0x9F00#16 0x9300#16
  | .wrDeviceDlyA _ _ => .spi16 0x9F00#16 0x1400#16
  | .rdDeviceDlyA _ _ => .spi16 0x9F00#16 0x9400#16
  | .wrDeviceDlyB _ _ => .spi16 0x9F00#16 0x1500#16
  | .rdDeviceDlyB _ _ => .spi16 0x9F00#16 0x9500#16
  | .wrTrigAssgnA _ _ => .spi16 0x9F00#16 0x1600#16
  | .rdTrigAssgnA _ _ => .spi16 0x9F00#16 0x9600#16
  | .wrTrigAssgnB _ _ => .spi16 0x9F00#16 0x1700#16
  | .rdTrigAssgnB _ _ => .spi16 0x9F00#16 0x9700#16
  | .wrLCnfgA _ _ => .spi16 0x9F00#16 0x1800#16
  | .rdLCnfgA _ _ => .spi16 0x9F00#16 0x9800#16
  | .wrLCnfgB _ _ => .spi16 0x9F00#16 0x1900#16
  | .rdLCnfgB _ _ => .spi16 0x9F00#16 0x9900#16
  | .wrIOStCfgA _ _ => .spi16 0x9F00#16 0x1A00#16
  | .rdIOStCfgA _ _ => .spi16 0x9F00#16 0x9A00#16
  | .wrIOStCfgB _ _ => .spi16 0x9F00#16 0x1B00#16
  | .rdIOStCfgB _ _ => .spi16 0x9F00#16 0x9B00#16
  | .wrDrvrCurrLim _ _ => .spi16 0x9F00#16 0x1C00#16
  | .rdDrvrCurrLim _ _ => .spi16 0x9F00#16 0x9C00#16
  | .wrClock _ _ => .spi16 0x9F00#16 0x1D00#16
  | .rdClock _ _ => .spi16 0x9F00#16 0x9D00#16
  | .wrStatus _ _ => .spi16 0x9F00#16 0x1E00#16
  | .rdStatus _ _ => .spi16 0x9F00#16 0x9E00#16
  | .wrRevID _ _ => .spi16 0x9F00#16 0x1F00#16
  | .rdRevID _ _ => .spi16 0x9F00#16 0x9F00#16
  | .setmode _ _ => .cmd3 0x0#3 0x0#3
  | .setmodeInactive _ => .cmd3 0x3#3 0x0#3
  | .setmodeWakeup _ => .cmd3 0x3#3 0x1#3
  | .setmodeOperate _ => .cmd3 0x3#3 0x2#3
  | .setmodeReserved _ => .cmd3 0x3#3 0x3#3

theorem wr_and_mask (chip : ChipAddr) (addr : RegAddr) (data : Byte) :
    spiWord 0#1 chip addr data &&& 0x8000#16 = 0x0#16 := by
  apply BitVec.eq_of_getLsbD_eq
  intro i hi
  interval_cases i
  all_goals simp only [BitVec.getLsbD_and, spiWord_bit]
  all_goals simp

theorem rd_and_mask (chip : ChipAddr) (addr : RegAddr) (data : Byte) :
    spiWord 1#1 chip addr data &&& 0x8000#16 = 0x8000#16 := by
  apply BitVec.eq_of_getLsbD_eq
  intro i hi
  interval_cases i
  all_goals simp only [BitVec.getLsbD_and, spiWord_bit]
  all_goals simp

/-- A row that fixes direction and address fits the word of that direction and address. -/
theorem row_fits (rw : BitVec 1) (chip : ChipAddr) (addr : RegAddr) (data : Byte) (pattern : BitVec 16)
    (h : spiWord rw 0#2 addr 0#8 = pattern) :
    (TableRow.spi16 0x9F00#16 pattern).Fits (.spi16 (spiWord rw chip addr data)) :=
  (spiWord_and_mask rw chip addr data).trans h

/-- The encoding of the instruction has its row's fixed bits. -/
def RowMatch.Statement (i : Instr) : Prop := (tableRow i).Fits (encode i)

theorem RowMatch.wr (chip : ChipAddr) (addr : RegAddr) (data : Byte) : RowMatch.Statement (.wr chip addr data) :=
  wr_and_mask chip addr data
theorem RowMatch.rd (chip : ChipAddr) (addr : RegAddr) (sdi : Byte) : RowMatch.Statement (.rd chip addr sdi) :=
  rd_and_mask chip addr sdi
theorem RowMatch.wrTxRxDataA (chip : ChipAddr) (data : Byte) : RowMatch.Statement (.wrTxRxDataA chip data) :=
  row_fits _ _ _ _ _ (by decide)
theorem RowMatch.rdTxRxDataA (chip : ChipAddr) (sdi : Byte) : RowMatch.Statement (.rdTxRxDataA chip sdi) :=
  row_fits _ _ _ _ _ (by decide)
theorem RowMatch.wrTxRxDataB (chip : ChipAddr) (data : Byte) : RowMatch.Statement (.wrTxRxDataB chip data) :=
  row_fits _ _ _ _ _ (by decide)
theorem RowMatch.rdTxRxDataB (chip : ChipAddr) (sdi : Byte) : RowMatch.Statement (.rdTxRxDataB chip sdi) :=
  row_fits _ _ _ _ _ (by decide)
theorem RowMatch.wrInterrupt (chip : ChipAddr) (data : Byte) : RowMatch.Statement (.wrInterrupt chip data) :=
  row_fits _ _ _ _ _ (by decide)
theorem RowMatch.rdInterrupt (chip : ChipAddr) (sdi : Byte) : RowMatch.Statement (.rdInterrupt chip sdi) :=
  row_fits _ _ _ _ _ (by decide)
theorem RowMatch.wrInterruptEn (chip : ChipAddr) (data : Byte) : RowMatch.Statement (.wrInterruptEn chip data) :=
  row_fits _ _ _ _ _ (by decide)
theorem RowMatch.rdInterruptEn (chip : ChipAddr) (sdi : Byte) : RowMatch.Statement (.rdInterruptEn chip sdi) :=
  row_fits _ _ _ _ _ (by decide)
theorem RowMatch.wrRxFIFOLvlA (chip : ChipAddr) (data : Byte) : RowMatch.Statement (.wrRxFIFOLvlA chip data) :=
  row_fits _ _ _ _ _ (by decide)
theorem RowMatch.rdRxFIFOLvlA (chip : ChipAddr) (sdi : Byte) : RowMatch.Statement (.rdRxFIFOLvlA chip sdi) :=
  row_fits _ _ _ _ _ (by decide)
theorem RowMatch.wrRxFIFOLvlB (chip : ChipAddr) (data : Byte) : RowMatch.Statement (.wrRxFIFOLvlB chip data) :=
  row_fits _ _ _ _ _ (by decide)
theorem RowMatch.rdRxFIFOLvlB (chip : ChipAddr) (sdi : Byte) : RowMatch.Statement (.rdRxFIFOLvlB chip sdi) :=
  row_fits _ _ _ _ _ (by decide)
theorem RowMatch.wrCQCtrlA (chip : ChipAddr) (data : Byte) : RowMatch.Statement (.wrCQCtrlA chip data) :=
  row_fits _ _ _ _ _ (by decide)
theorem RowMatch.rdCQCtrlA (chip : ChipAddr) (sdi : Byte) : RowMatch.Statement (.rdCQCtrlA chip sdi) :=
  row_fits _ _ _ _ _ (by decide)
theorem RowMatch.wrCQCtrlB (chip : ChipAddr) (data : Byte) : RowMatch.Statement (.wrCQCtrlB chip data) :=
  row_fits _ _ _ _ _ (by decide)
theorem RowMatch.rdCQCtrlB (chip : ChipAddr) (sdi : Byte) : RowMatch.Statement (.rdCQCtrlB chip sdi) :=
  row_fits _ _ _ _ _ (by decide)
theorem RowMatch.wrCQErrA (chip : ChipAddr) (data : Byte) : RowMatch.Statement (.wrCQErrA chip data) :=
  row_fits _ _ _ _ _ (by decide)
theorem RowMatch.rdCQErrA (chip : ChipAddr) (sdi : Byte) : RowMatch.Statement (.rdCQErrA chip sdi) :=
  row_fits _ _ _ _ _ (by decide)
theorem RowMatch.wrCQErrB (chip : ChipAddr) (data : Byte) : RowMatch.Statement (.wrCQErrB chip data) :=
  row_fits _ _ _ _ _ (by decide)
theorem RowMatch.rdCQErrB (chip : ChipAddr) (sdi : Byte) : RowMatch.Statement (.rdCQErrB chip sdi) :=
  row_fits _ _ _ _ _ (by decide)
theorem RowMatch.wrMsgCtrlA (chip : ChipAddr) (data : Byte) : RowMatch.Statement (.wrMsgCtrlA chip data) :=
  row_fits _ _ _ _ _ (by decide)
theorem RowMatch.rdMsgCtrlA (chip : ChipAddr) (sdi : Byte) : RowMatch.Statement (.rdMsgCtrlA chip sdi) :=
  row_fits _ _ _ _ _ (by decide)
theorem RowMatch.wrMsgCtrlB (chip : ChipAddr) (data : Byte) : RowMatch.Statement (.wrMsgCtrlB chip data) :=
  row_fits _ _ _ _ _ (by decide)
theorem RowMatch.rdMsgCtrlB (chip : ChipAddr) (sdi : Byte) : RowMatch.Statement (.rdMsgCtrlB chip sdi) :=
  row_fits _ _ _ _ _ (by decide)
theorem RowMatch.wrChanStatA (chip : ChipAddr) (data : Byte) : RowMatch.Statement (.wrChanStatA chip data) :=
  row_fits _ _ _ _ _ (by decide)
theorem RowMatch.rdChanStatA (chip : ChipAddr) (sdi : Byte) : RowMatch.Statement (.rdChanStatA chip sdi) :=
  row_fits _ _ _ _ _ (by decide)
theorem RowMatch.wrChanStatB (chip : ChipAddr) (data : Byte) : RowMatch.Statement (.wrChanStatB chip data) :=
  row_fits _ _ _ _ _ (by decide)
theorem RowMatch.rdChanStatB (chip : ChipAddr) (sdi : Byte) : RowMatch.Statement (.rdChanStatB chip sdi) :=
  row_fits _ _ _ _ _ (by decide)
theorem RowMatch.wrLEDCtrl (chip : ChipAddr) (data : Byte) : RowMatch.Statement (.wrLEDCtrl chip data) :=
  row_fits _ _ _ _ _ (by decide)
theorem RowMatch.rdLEDCtrl (chip : ChipAddr) (sdi : Byte) : RowMatch.Statement (.rdLEDCtrl chip sdi) :=
  row_fits _ _ _ _ _ (by decide)
theorem RowMatch.wrTrigger (chip : ChipAddr) (data : Byte) : RowMatch.Statement (.wrTrigger chip data) :=
  row_fits _ _ _ _ _ (by decide)
theorem RowMatch.rdTrigger (chip : ChipAddr) (sdi : Byte) : RowMatch.Statement (.rdTrigger chip sdi) :=
  row_fits _ _ _ _ _ (by decide)
theorem RowMatch.wrCQCfgA (chip : ChipAddr) (data : Byte) : RowMatch.Statement (.wrCQCfgA chip data) :=
  row_fits _ _ _ _ _ (by decide)
theorem RowMatch.rdCQCfgA (chip : ChipAddr) (sdi : Byte) : RowMatch.Statement (.rdCQCfgA chip sdi) :=
  row_fits _ _ _ _ _ (by decide)
theorem RowMatch.wrCQCfgB (chip : ChipAddr) (data : Byte) : RowMatch.Statement (.wrCQCfgB chip data) :=
  row_fits _ _ _ _ _ (by decide)
theorem RowMatch.rdCQCfgB (chip : ChipAddr) (sdi : Byte) : RowMatch.Statement (.rdCQCfgB chip sdi) :=
  row_fits _ _ _ _ _ (by decide)
theorem RowMatch.wrCyclTmrA (chip : ChipAddr) (data : Byte) : RowMatch.Statement (.wrCyclTmrA chip data) :=
  row_fits _ _ _ _ _ (by decide)
theorem RowMatch.rdCyclTmrA (chip : ChipAddr) (sdi : Byte) : RowMatch.Statement (.rdCyclTmrA chip sdi) :=
  row_fits _ _ _ _ _ (by decide)
theorem RowMatch.wrCyclTmrB (chip : ChipAddr) (data : Byte) : RowMatch.Statement (.wrCyclTmrB chip data) :=
  row_fits _ _ _ _ _ (by decide)
theorem RowMatch.rdCyclTmrB (chip : ChipAddr) (sdi : Byte) : RowMatch.Statement (.rdCyclTmrB chip sdi) :=
  row_fits _ _ _ _ _ (by decide)
theorem RowMatch.wrDeviceDlyA (chip : ChipAddr) (data : Byte) : RowMatch.Statement (.wrDeviceDlyA chip data) :=
  row_fits _ _ _ _ _ (by decide)
theorem RowMatch.rdDeviceDlyA (chip : ChipAddr) (sdi : Byte) : RowMatch.Statement (.rdDeviceDlyA chip sdi) :=
  row_fits _ _ _ _ _ (by decide)
theorem RowMatch.wrDeviceDlyB (chip : ChipAddr) (data : Byte) : RowMatch.Statement (.wrDeviceDlyB chip data) :=
  row_fits _ _ _ _ _ (by decide)
theorem RowMatch.rdDeviceDlyB (chip : ChipAddr) (sdi : Byte) : RowMatch.Statement (.rdDeviceDlyB chip sdi) :=
  row_fits _ _ _ _ _ (by decide)
theorem RowMatch.wrTrigAssgnA (chip : ChipAddr) (data : Byte) : RowMatch.Statement (.wrTrigAssgnA chip data) :=
  row_fits _ _ _ _ _ (by decide)
theorem RowMatch.rdTrigAssgnA (chip : ChipAddr) (sdi : Byte) : RowMatch.Statement (.rdTrigAssgnA chip sdi) :=
  row_fits _ _ _ _ _ (by decide)
theorem RowMatch.wrTrigAssgnB (chip : ChipAddr) (data : Byte) : RowMatch.Statement (.wrTrigAssgnB chip data) :=
  row_fits _ _ _ _ _ (by decide)
theorem RowMatch.rdTrigAssgnB (chip : ChipAddr) (sdi : Byte) : RowMatch.Statement (.rdTrigAssgnB chip sdi) :=
  row_fits _ _ _ _ _ (by decide)
theorem RowMatch.wrLCnfgA (chip : ChipAddr) (data : Byte) : RowMatch.Statement (.wrLCnfgA chip data) :=
  row_fits _ _ _ _ _ (by decide)
theorem RowMatch.rdLCnfgA (chip : ChipAddr) (sdi : Byte) : RowMatch.Statement (.rdLCnfgA chip sdi) :=
  row_fits _ _ _ _ _ (by decide)
theorem RowMatch.wrLCnfgB (chip : ChipAddr) (data : Byte) : RowMatch.Statement (.wrLCnfgB chip data) :=
  row_fits _ _ _ _ _ (by decide)
theorem RowMatch.rdLCnfgB (chip : ChipAddr) (sdi : Byte) : RowMatch.Statement (.rdLCnfgB chip sdi) :=
  row_fits _ _ _ _ _ (by decide)
theorem RowMatch.wrIOStCfgA (chip : ChipAddr) (data : Byte) : RowMatch.Statement (.wrIOStCfgA chip data) :=
  row_fits _ _ _ _ _ (by decide)
theorem RowMatch.rdIOStCfgA (chip : ChipAddr) (sdi : Byte) : RowMatch.Statement (.rdIOStCfgA chip sdi) :=
  row_fits _ _ _ _ _ (by decide)
theorem RowMatch.wrIOStCfgB (chip : ChipAddr) (data : Byte) : RowMatch.Statement (.wrIOStCfgB chip data) :=
  row_fits _ _ _ _ _ (by decide)
theorem RowMatch.rdIOStCfgB (chip : ChipAddr) (sdi : Byte) : RowMatch.Statement (.rdIOStCfgB chip sdi) :=
  row_fits _ _ _ _ _ (by decide)
theorem RowMatch.wrDrvrCurrLim (chip : ChipAddr) (data : Byte) : RowMatch.Statement (.wrDrvrCurrLim chip data) :=
  row_fits _ _ _ _ _ (by decide)
theorem RowMatch.rdDrvrCurrLim (chip : ChipAddr) (sdi : Byte) : RowMatch.Statement (.rdDrvrCurrLim chip sdi) :=
  row_fits _ _ _ _ _ (by decide)
theorem RowMatch.wrClock (chip : ChipAddr) (data : Byte) : RowMatch.Statement (.wrClock chip data) :=
  row_fits _ _ _ _ _ (by decide)
theorem RowMatch.rdClock (chip : ChipAddr) (sdi : Byte) : RowMatch.Statement (.rdClock chip sdi) :=
  row_fits _ _ _ _ _ (by decide)
theorem RowMatch.wrStatus (chip : ChipAddr) (data : Byte) : RowMatch.Statement (.wrStatus chip data) :=
  row_fits _ _ _ _ _ (by decide)
theorem RowMatch.rdStatus (chip : ChipAddr) (sdi : Byte) : RowMatch.Statement (.rdStatus chip sdi) :=
  row_fits _ _ _ _ _ (by decide)
theorem RowMatch.wrRevID (chip : ChipAddr) (data : Byte) : RowMatch.Statement (.wrRevID chip data) :=
  row_fits _ _ _ _ _ (by decide)
theorem RowMatch.rdRevID (chip : ChipAddr) (sdi : Byte) : RowMatch.Statement (.rdRevID chip sdi) :=
  row_fits _ _ _ _ _ (by decide)
theorem RowMatch.setmode (ch : Chan) (mode : BitVec 2) : RowMatch.Statement (.setmode ch mode) :=
  show cmdWord ch mode &&& 0x0#3 = 0x0#3 by simp
theorem RowMatch.setmodeInactive (ch : Chan) : RowMatch.Statement (.setmodeInactive ch) := by
  cases ch <;> exact rfl
theorem RowMatch.setmodeWakeup (ch : Chan) : RowMatch.Statement (.setmodeWakeup ch) := by
  cases ch <;> exact rfl
theorem RowMatch.setmodeOperate (ch : Chan) : RowMatch.Statement (.setmodeOperate ch) := by
  cases ch <;> exact rfl
theorem RowMatch.setmodeReserved (ch : Chan) : RowMatch.Statement (.setmodeReserved ch) := by
  cases ch <;> exact rfl

end Sys2Proof.Laws
end

