-- ==== Sys2Proof/Laws/Run.lean ====
section
/-!
SUPPORT. Runs of several steps, taken apart.
-/

namespace Sys2Proof.Machine

open Sys2Proof

/-- A run whose first step answers a next state goes on from there. -/
theorem run_succ (k : Nat) {s u : State} (h : step s = .next u) :
    Host.Core.run Sys2Proof.core (k + 1) s = Host.Core.run Sys2Proof.core k u := by
  simp only [Host.Core.run]
  rw [show Sys2Proof.core.step s = .next u from h]

/-- A run whose first `j` steps answer a next state goes on from there. -/
theorem run_add (j k : Nat) {s u : State} (h : Host.Core.run Sys2Proof.core j s = .next u) :
    Host.Core.run Sys2Proof.core (j + k) s = Host.Core.run Sys2Proof.core k u := by
  induction j generalizing s with
  | zero =>
    simp only [Host.Core.run] at h
    injection h with h
    rw [h, Nat.zero_add]
  | succ j ih =>
    rw [show j + 1 + k = j + k + 1 by omega]
    simp only [Host.Core.run] at h ⊢
    cases hs : Sys2Proof.core.step s with
    | next w => rw [hs] at h; exact ih h
    | fault r => rw [hs] at h; cases h
    | refused r => rw [hs] at h; cases h

end Sys2Proof.Machine
end

