-- ==== Sys2Proof/Tests/Slice0.lean ====
section
/-!
SUPPORT. The model's own tests: well-formedness, one word of every row written out from the table's encoding, vectors of
95_test_vectors.md, and for each statement with hypotheses (Certificates/Slice0/Obligations.lean) states and operands that
meet them, at the boundaries of its clauses. Expected values are the spec's.
-/

namespace Sys2Proof.Tests

open Sys2Proof Sys2Proof.Machine

/-! ## Helpers -/

/-- What a view shows of a next state; nothing of a stop. -/
def see {α : Type} (o : Outcome) (f : State → α) : Option α :=
  match o with
  | .next s => some (f s)
  | .fault _ => none
  | .refused _ => none

/-- The state after reset with the start-up sequence behind it (V40, V41, V42: "reset state"). -/
def ready : State := { State.reset with boot := .ready }

/-- One step, on the state with that event to come. -/
def feed (e : Event) (s : State) : Outcome := step { s with agenda := [e] }

/-- One transaction of 16 clocks with status ok. -/
def spi (w : BitVec 16) : Event := .spi 16 w .ok

/-- A channel at its reset values. -/
def chan0 : Channel := Channel.resetWith .inactive 0 0

/-- `ready` with that channel A. -/
def withA (c : Channel) : State := { ready with chA := c }

/-- `ready` with that channel B. -/
def withB (c : Channel) : State := { ready with chB := c }

/-- A channel in that state of the sequencer, with that many pulses and ms left. -/
def seqChan (w : WuState) (pulses timer : Nat) : Channel := { chan0 with wuState := w, wuPulses := pulses, wuTimer := timer }

/-- A channel with the framer enabled. -/
def open0 : Channel := { chan0 with framerEn := true }

/-- A channel Established in mode WAKEUP. -/
def est0 : Channel := { open0 with wuState := .established, wuPulses := 1, mode := .wakeup, comValid := true }

/-! ## Well-formedness: an ill-formed term for each check -/

theorem test_wellformed_refuses_generic_write : notGenericWrite (.wr 0 0x03 0x40) = false ∧ WellFormed (.wr 0 0x03 0x40) = false := by
  decide
theorem test_wellformed_refuses_generic_read : notGenericRead (.rd 0 0x03 0x40) = false ∧ WellFormed (.rd 0 0x03 0x40) = false := by
  decide
theorem test_wellformed_refuses_generic_setmode :
    notGenericSetmode (.setmode .a 1) = false ∧ WellFormed (.setmode .a 1) = false := by
  decide

/-! ## Decoding: every row's word, from the table's encoding -/

/-- The write rows 0x00 to 0x0F (R91, R95): rw 0, chip 10, the row's address, data 01011010. -/
theorem test_decode_writes_low :
    decode (.spi16 0b0_10_00000_01011010#16) = .wrTxRxDataA 2 0x5A ∧
    decode (.spi16 0b0_10_00001_01011010#16) = .wrTxRxDataB 2 0x5A ∧
    decode (.spi16 0b0_10_00010_01011010#16) = .wrInterrupt 2 0x5A ∧
    decode (.spi16 0b0_10_00011_01011010#16) = .wrInterruptEn 2 0x5A ∧
    decode (.spi16 0b0_10_00100_01011010#16) = .wrRxFIFOLvlA 2 0x5A ∧
    decode (.spi16 0b0_10_00101_01011010#16) = .wrRxFIFOLvlB 2 0x5A ∧
    decode (.spi16 0b0_10_00110_01011010#16) = .wrCQCtrlA 2 0x5A ∧
    decode (.spi16 0b0_10_00111_01011010#16) = .wrCQCtrlB 2 0x5A ∧
    decode (.spi16 0b0_10_01000_01011010#16) = .wrCQErrA 2 0x5A ∧
    decode (.spi16 0b0_10_01001_01011010#16) = .wrCQErrB 2 0x5A ∧
    decode (.spi16 0b0_10_01010_01011010#16) = .wrMsgCtrlA 2 0x5A ∧
    decode (.spi16 0b0_10_01011_01011010#16) = .wrMsgCtrlB 2 0x5A ∧
    decode (.spi16 0b0_10_01100_01011010#16) = .wrChanStatA 2 0x5A ∧
    decode (.spi16 0b0_10_01101_01011010#16) = .wrChanStatB 2 0x5A ∧
    decode (.spi16 0b0_10_01110_01011010#16) = .wrLEDCtrl 2 0x5A ∧
    decode (.spi16 0b0_10_01111_01011010#16) = .wrTrigger 2 0x5A := by
  decide

/-- The write rows 0x10 to 0x1F (R91, R95). -/
theorem test_decode_writes_high :
    decode (.spi16 0b0_10_10000_01011010#16) = .wrCQCfgA 2 0x5A ∧
    decode (.spi16 0b0_10_10001_01011010#16) = .wrCQCfgB 2 0x5A ∧
    decode (.spi16 0b0_10_10010_01011010#16) = .wrCyclTmrA 2 0x5A ∧
    decode (.spi16 0b0_10_10011_01011010#16) = .wrCyclTmrB 2 0x5A ∧
    decode (.spi16 0b0_10_10100_01011010#16) = .wrDeviceDlyA 2 0x5A ∧
    decode (.spi16 0b0_10_10101_01011010#16) = .wrDeviceDlyB 2 0x5A ∧
    decode (.spi16 0b0_10_10110_01011010#16) = .wrTrigAssgnA 2 0x5A ∧
    decode (.spi16 0b0_10_10111_01011010#16) = .wrTrigAssgnB 2 0x5A ∧
    decode (.spi16 0b0_10_11000_01011010#16) = .wrLCnfgA 2 0x5A ∧
    decode (.spi16 0b0_10_11001_01011010#16) = .wrLCnfgB 2 0x5A ∧
    decode (.spi16 0b0_10_11010_01011010#16) = .wrIOStCfgA 2 0x5A ∧
    decode (.spi16 0b0_10_11011_01011010#16) = .wrIOStCfgB 2 0x5A ∧
    decode (.spi16 0b0_10_11100_01011010#16) = .wrDrvrCurrLim 2 0x5A ∧
    decode (.spi16 0b0_10_11101_01011010#16) = .wrClock 2 0x5A ∧
    decode (.spi16 0b0_10_11110_01011010#16) = .wrStatus 2 0x5A ∧
    decode (.spi16 0b0_10_11111_01011010#16) = .wrRevID 2 0x5A := by
  decide

/-- The read rows 0x00 to 0x0F (R91, R95): rw 1. -/
theorem test_decode_reads_low :
    decode (.spi16 0b1_10_00000_01011010#16) = .rdTxRxDataA 2 0x5A ∧
    decode (.spi16 0b1_10_00001_01011010#16) = .rdTxRxDataB 2 0x5A ∧
    decode (.spi16 0b1_10_00010_01011010#16) = .rdInterrupt 2 0x5A ∧
    decode (.spi16 0b1_10_00011_01011010#16) = .rdInterruptEn 2 0x5A ∧
    decode (.spi16 0b1_10_00100_01011010#16) = .rdRxFIFOLvlA 2 0x5A ∧
    decode (.spi16 0b1_10_00101_01011010#16) = .rdRxFIFOLvlB 2 0x5A ∧
    decode (.spi16 0b1_10_00110_01011010#16) = .rdCQCtrlA 2 0x5A ∧
    decode (.spi16 0b1_10_00111_01011010#16) = .rdCQCtrlB 2 0x5A ∧
    decode (.spi16 0b1_10_01000_01011010#16) = .rdCQErrA 2 0x5A ∧
    decode (.spi16 0b1_10_01001_01011010#16) = .rdCQErrB 2 0x5A ∧
    decode (.spi16 0b1_10_01010_01011010#16) = .rdMsgCtrlA 2 0x5A ∧
    decode (.spi16 0b1_10_01011_01011010#16) = .rdMsgCtrlB 2 0x5A ∧
    decode (.spi16 0b1_10_01100_01011010#16) = .rdChanStatA 2 0x5A ∧
    decode (.spi16 0b1_10_01101_01011010#16) = .rdChanStatB 2 0x5A ∧
    decode (.spi16 0b1_10_01110_01011010#16) = .rdLEDCtrl 2 0x5A ∧
    decode (.spi16 0b1_10_01111_01011010#16) = .rdTrigger 2 0x5A := by
  decide

/-- The read rows 0x10 to 0x1F (R91, R95). -/
theorem test_decode_reads_high :
    decode (.spi16 0b1_10_10000_01011010#16) = .rdCQCfgA 2 0x5A ∧
    decode (.spi16 0b1_10_10001_01011010#16) = .rdCQCfgB 2 0x5A ∧
    decode (.spi16 0b1_10_10010_01011010#16) = .rdCyclTmrA 2 0x5A ∧
    decode (.spi16 0b1_10_10011_01011010#16) = .rdCyclTmrB 2 0x5A ∧
    decode (.spi16 0b1_10_10100_01011010#16) = .rdDeviceDlyA 2 0x5A ∧
    decode (.spi16 0b1_10_10101_01011010#16) = .rdDeviceDlyB 2 0x5A ∧
    decode (.spi16 0b1_10_10110_01011010#16) = .rdTrigAssgnA 2 0x5A ∧
    decode (.spi16 0b1_10_10111_01011010#16) = .rdTrigAssgnB 2 0x5A ∧
    decode (.spi16 0b1_10_11000_01011010#16) = .rdLCnfgA 2 0x5A ∧
    decode (.spi16 0b1_10_11001_01011010#16) = .rdLCnfgB 2 0x5A ∧
    decode (.spi16 0b1_10_11010_01011010#16) = .rdIOStCfgA 2 0x5A ∧
    decode (.spi16 0b1_10_11011_01011010#16) = .rdIOStCfgB 2 0x5A ∧
    decode (.spi16 0b1_10_11100_01011010#16) = .rdDrvrCurrLim 2 0x5A ∧
    decode (.spi16 0b1_10_11101_01011010#16) = .rdClock 2 0x5A ∧
    decode (.spi16 0b1_10_11110_01011010#16) = .rdStatus 2 0x5A ∧
    decode (.spi16 0b1_10_11111_01011010#16) = .rdRevID 2 0x5A := by
  decide
/-- The generic rows' words decode to the row that names the register (R95): `0 00 00011 01000000`, `1 00 00011 00000000`. -/
theorem test_decode_generic_words :
    encode (.wr 0 0x03 0x40) = .spi16 0b0_00_00011_01000000#16 ∧
    decode (.spi16 0b0_00_00011_01000000#16) = .wrInterruptEn 0 0x40 ∧
    encode (.rd 0 0x03 0x00) = .spi16 0b1_00_00011_00000000#16 ∧
    decode (.spi16 0b1_00_00011_00000000#16) = .rdInterruptEn 0 0x00 ∧
    encode (.setmode .b 0b01) = .cmd3 0b1_01#3 := by
  decide

/-- The eight mode-request words (R96). -/
theorem test_decode_mode_requests :
    decode (.cmd3 0b0_00#3) = .setmodeInactive .a ∧ decode (.cmd3 0b0_01#3) = .setmodeWakeup .a ∧
    decode (.cmd3 0b0_10#3) = .setmodeOperate .a ∧ decode (.cmd3 0b0_11#3) = .setmodeReserved .a ∧
    decode (.cmd3 0b1_00#3) = .setmodeInactive .b ∧ decode (.cmd3 0b1_01#3) = .setmodeWakeup .b ∧
    decode (.cmd3 0b1_10#3) = .setmodeOperate .b ∧ decode (.cmd3 0b1_11#3) = .setmodeReserved .b := by
  decide

/-- Other lengths are rejected by name (R97 (c)); a table word is 16 or 3 bits wide. -/
theorem test_decode_lengths :
    decodeClocks 15 0x0340#16 = .error .shortTransaction ∧ decodeClocks 17 0x0340#16 = .error .longTransaction ∧
    decodeTableWord 16 0x0340 = some (.wrInterruptEn 0 0x40) ∧ decodeTableWord 16 0x10000 = none ∧
    decodeTableWord 8 0b101 = some (.setmodeWakeup .b) ∧ decodeTableWord 8 0b1000 = none ∧ decodeTableWord 24 0 = none := by
  refine ⟨rfl, rfl, ?_⟩
  decide

/-- A short transaction latches its command byte at the block's own address only (R14, R116). -/
theorem test_short_transaction :
    see (feed (.spi 8 0x0340 .ok) ready) (fun s => (s.spi.cmd, s.interruptEn)) = some (0x03, 0x00) ∧
    see (feed (.spi 8 0x2340 .ok) ready) (fun s => (s.spi.cmd, s.interruptEn)) = some (0x00, 0x00) := by
  decide

/-- The word placed for the fetch is what the next step runs (V40.3, 41: CMD3 0b101). -/
theorem test_fetch_word :
    see (step (State.reset.withFetchWord 16 0x06FF)) (fun s => (s.chA.cqctrl, s.out)) = some (0xE2, [.wakePulse .a]) ∧
    see (step (State.reset.withFetchWord 16 0x9D00)) (fun s => s.spi.sdoData) = some 0x00 ∧
    see (step (State.reset.withFetchWord 8 0b101)) (fun s => s.chB.wuState) = some .pulsing := by
  decide

/-! ## Register accesses (V40, V42) -/

theorem test_V40_1_write : see (feed (spi 0x0340) ready) (fun s => (s.interruptEn, s.irqN)) = some (0x40, true) := by
  decide
theorem test_V40_1_read : see (feed (spi 0x8300) { ready with interruptEn := 0x40 }) (·.spi.sdoData) = some 0x40 := by
  decide
theorem test_V40_2 : see (feed (spi 0x4710) { ready with params := { ready.params with chipAddr := 2 } })
    (fun s => (s.out, s.chB.cqctrl, s.chB.wuState)) = some ([.wakePulse .b], 0x00, .idle) := by
  decide
theorem test_V40_3 : see (feed (spi 0x06FF) (withA { chan0 with txfifo := [1], rxfifo := [2] }))
    (fun s => (s.chA.cqctrl, s.chA.txfifo, s.chA.rxfifo, s.out, s.chA.cqerr)) =
      some (0xE2, [], [], [.wakePulse .a], 0x00) := by
  decide
theorem test_V40_4 : see (feed (spi 0x060D) (withA open0)) (fun s => (s.chA.cqerr, s.irqFlags, s.chA.xfer, s.out)) =
    some (0x10, 0x10, .xIdle, []) := by
  decide
theorem test_V40_5 : see (feed (spi 0x1F55) ready) (·.params.revId) = some ready.params.revId ∧
    see (feed (spi 0x9F00) { ready with params := { ready.params with revId := 0xA5 } }) (·.spi.sdoData) = some 0xA5 := by
  decide
theorem test_V40_6 : see (feed (spi 0x0200) { ready with irqFlags := 0x40 }) (·.irqFlags) = some 0x40 ∧
    see (feed (spi 0x8200) { ready with irqFlags := 0x40 }) (fun s => (s.spi.sdoData, s.irqFlags)) = some (0x40, 0x00) := by
  decide
theorem test_V40_7 : see (feed (spi 0x0900) (withB { chan0 with cqerr := 0x21 })) (·.chB.cqerr) = some 0x21 ∧
    see (feed (spi 0x8900) { withB { chan0 with cqerr := 0x21 } with irqFlags := 0x20 })
      (fun s => (s.spi.sdoData, s.chB.cqerr, s.irqFlags)) = some (0x21, 0x00, 0x20) := by
  decide
theorem test_V40_8 : see (feed (spi 0x0C7F) ready) (·.chA.framerEn) = some true ∧
    see (feed (spi 0x8C00) { withA open0 with env := { statusIn := 0, chanFaultA := 0x05, chanFaultB := 0 } })
      (·.spi.sdoData) = some 0x45 := by
  decide
theorem test_V40_9 : see (feed (spi 0x0DC0) { withB open0 with storage := { StorageRegs.zero with clock := 0x07 } })
    (fun s => (s.storage.clock, s.chA.framerEn, s.chB.framerEn, s.out)) = some (0x00, false, false, []) := by
  decide
theorem test_V40_10 : see (feed (spi 0x26FF) ready) (fun s => (s.chA, s.out, s.spi.cmd)) = some (chan0, [], 0x00) := by
  decide
theorem test_V40_11 :
    see (feed (.spi 16 0x0033 (.fail false)) (withA { chan0 with txfifo := [0x01] })) (·.chA.txfifo) = some [0x01] ∧
    see (feed (.spi 16 0x0033 (.fail true)) (withA { chan0 with txfifo := [0x01] })) (fun s => (s.chA.txfifo, s.spi.exchangeOk)) =
      some ([0x01, 0x33], false) := by
  decide
theorem test_V40_12 : see (feed (spi 0x13AB) ready) (fun s => (s.storage.cyclTmrB, s.storage.cyclTmrA)) = some (0xAB, 0x00) := by
  decide
theorem test_V40_13 : see (feed (spi 0x8400) (withA { chan0 with rxfifo := [7, 8] })) (·.spi.sdoData) = some 0x02 := by
  decide
theorem test_V40_14 : see (feed (spi 0x9E00) { ready with env := { statusIn := 0x81, chanFaultA := 0, chanFaultB := 0 } })
    (·.spi.sdoData) = some 0x81 := by
  decide
theorem test_V40_15 : see (feed (spi 0x0BFF) ready) (fun s => (s.chB.msgCtrl, s.chA.msgCtrl)) = some (0xFF, 0x00) := by
  decide
theorem test_V42_2 : see (feed (spi 0x8000) ready) (fun s => (s.chA, s.irqFlags)) = some (chan0, 0x00) := by
  decide
theorem test_V42_3 : see (feed (spi 0x0601) (withA { chan0 with txfifo := [1, 2] }))
    (fun s => (s.chA.txfifo, s.chA.xfer, s.out, s.irqFlags)) = some ([1, 2], .xIdle, [], 0x00) := by
  decide
theorem test_V42_11 : see (feed (spi 0x0601) (withA { open0 with msgCtrl := 0x08, txfifo := [1, 2] }))
    (fun s => (s.out, s.chA.txfifo, s.chA.xfer)) = some ([.lineTx .a [1, 2]], [1, 2], .xAwait) := by
  decide
theorem test_V42_14 : see (feed (spi 0x0601) (withA { open0 with msgCtrl := 0x20, txfifo := [5] }))
    (fun s => (s.out, s.chA.cqerr)) = some ([.lineTx .a (Config.cksInsert [5])], 0x00) := by
  rfl
theorem test_V42_17 : see (feed (spi 0x0704) (withB { open0 with xfer := .xAwait, rxfifo := [9], rxmsg := [9], cqerr := 0x02 }))
    (fun s => (s.chB.rxfifo, s.chB.rxmsg, s.chB.xfer, s.chB.cqerr)) = some ([], [], .xIdle, 0x02) := by
  decide
theorem test_V42_20 : feed (spi 0x0601) (withA { open0 with xfer := .xAwait }) = .refused .secondTransfer := by
  rfl

/-! ## Mode requests and the sequencer (V41) -/

theorem test_V41_2 : see (feed (.cmd3 0b110) ready)
    (fun s => (s.chB.wuState, s.chB.mode, s.chB.framerEn, s.chB.wuPulses, s.chA)) = some (.pulsing, .operate, true, 0, chan0) := by
  decide
theorem test_V41_3 :
    see (feed .tick { withA { seqChan .awaitingResponse 5 1 with cqctrl := 0x80 } with irqFlags := 0x40 })
      (fun s => (s.chA.wuState, s.chA.comSpeed, s.chA.comValid, s.irqFlags, s.out)) =
        some (.established, 2, true, 0x00, [.established .a 2 0]) := by
  decide
theorem test_V41_4 : see (feed .tick (withA (seqChan .awaitingResponse 2 1))) (fun s => (s.chA.wuState, s.chA.wuTimer)) =
      some (.pulsing, 0) ∧
    see (feed (.pulse .a) (withA (seqChan .pulsing 2 0))) (fun s => (s.chA.wuState, s.chA.wuPulses, s.chA.wuTimer, s.out)) =
      some (.awaitingResponse, 3, 20, [.wakePulse .a]) := by
  decide
theorem test_V41_5 : see (feed .tick { withA est0 with irqFlags := 0x40 }) (fun s => (s.irqFlags, s.chA)) = some (0x40, est0) := by
  decide
theorem test_V41_6 :
    see (feed .tick { withA (seqChan .awaitingResponse 1 5) with chB := seqChan .awaitingResponse 1 7, irqFlags := 0x40 })
      (fun s => (s.chA.wuState, s.chB.wuState, s.chB.wuTimer, s.irqFlags)) = some (.established, .awaitingResponse, 6, 0x00) := by
  decide
theorem test_V41_9 : see (feed (.cmd3 0b000) (withA est0))
    (fun s => (s.chA, s.out)) = some ({ est0 with wuState := .idle, wuPulses := 0, mode := .inactive, framerEn := false }, []) := by
  decide
theorem test_V41_10 : see (feed (.cmd3 0b010) (withA est0)) (·.chA) = some { est0 with mode := .operate } := by
  decide
theorem test_V41_11 : see (feed (.cmd3 0b101) (withB { seqChan .failed 5 0 with mode := .wakeup }))
    (fun s => (s.chB.wuState, s.chB.wuPulses)) = some (.pulsing, 0) := by
  decide
theorem test_V41_12 : see (feed (.cmd3 0b000) (withA { seqChan .awaitingResponse 1 4 with mode := .wakeup }))
    (fun s => (s.chA.wuRestart, s.chA.wuReqMode, s.chA.mode, s.chA.wuTimer, s.chA.wuPulses)) =
      some (true, .inactive, .wakeup, 4, 1) := by
  decide
theorem test_V41_13 :
    see (feed .tick (withA { seqChan .awaitingResponse 5 1 with wuRestart := true, wuReqMode := .wakeup }))
      (fun s => (s.chA.wuState, s.chA.wuPulses, s.chA.wuRestart, s.out)) = some (.pulsing, 0, false, [.wakeUpTimeout .a]) := by
  decide
theorem test_V41_15 : see (feed (spi 0x0C80) (withB (seqChan .awaitingResponse 3 9)))
    (fun s => (s.chB.wuState, s.chB.wuPulses, s.out)) = some (.idle, 0, []) := by
  decide
theorem test_V41_17 : feed (.cmd3 0b011) ready = .refused .reservedMode := by
  rfl
theorem test_pulse_goes_first : see (feed .tick (withB (seqChan .pulsing 0 0))) (fun s => (s.chB.wuTimer, s.agenda)) =
    some (10, [.tick]) := by
  decide

/-! ## Line events (V42) -/

theorem test_V42_1 : see (feed (spi 0x01EE) (withB { chan0 with txfifo := List.replicate 64 0x00 }))
    (fun s => (s.chB.txfifo.length, s.chB.cqerr, s.irqFlags)) = some (64, 0x10, 0x20) := by
  decide
theorem test_V42_5 : see (feed (.lineRxChar .a 0x3C false false) (withA open0))
    (fun s => (s.chA.rxfifo, s.chA.cqerr, s.irqFlags)) = some ([0x3C], 0x03, 0x04) := by
  decide
theorem test_V42_6 :
    see (feed (.lineRxChar .b 0x99 true true)
        (withB { open0 with xfer := .xAwait, rxfifo := List.replicate 64 0x00, rxmsg := List.replicate 64 0x00 }))
      (fun s => (s.chB.rxfifo.length, s.chB.rxmsg.length, s.chB.cqerr, s.irqFlags)) = some (64, 65, 0x04, 0x08) := by
  decide
theorem test_V42_7 : see (feed (.lineRxEnd .a) (withA open0)) (fun s => (s.chA, s.irqFlags)) = some (open0, 0x00) := by
  decide
theorem test_V42_8 : see (feed (.lineNoReply .a) (withA { open0 with xfer := .xAwait }))
    (fun s => (s.chA.cqerr, s.irqFlags, s.chA.xfer)) = some (0x80, 0x10, .xIdle) := by
  decide
theorem test_V42_9 : see (feed (.cycleErr .b) ready) (fun s => (s.chB.cqerr, s.irqFlags)) = some (0x40, 0x20) := by
  decide
theorem test_V42_10 : see (feed (.statusEvent 0x81 0x01 0x02) ready) (fun s => (s.irqFlags, s.env)) =
    some (0x80, { statusIn := 0x81, chanFaultA := 0x01, chanFaultB := 0x02 }) := by
  decide
theorem test_V42_16 : see (feed (.lineRxChar .b 0x11 true true) ready) (·.chB) = some chan0 := by
  decide

/-! ## Host sequences (V43) -/

theorem test_V43_1 : see (feed (.hostCall 0 (.getPort .a)) ready) (·.host.returns) = some [(.chip 0, .invalidChannel)] ∧
    HostResult.invalidChannel.code = 8 := by
  decide
theorem test_V43_2 : see (feed (.hostCall 0 (.sendIOLData .a [0x00] 1 1)) ready) (·.host.returns) =
    some [(.chan .a, .notEstablished)] := by
  decide
theorem test_V43_3 : see (feed (.hostCall 0 (.sendIOLData .a [] 65 1)) (withA est0)) (·.host.returns) =
      some [(.chan .a, .invalidLength)] ∧
    see (feed (.hostCall 0 (.sendIOLData .a [] 1 65)) (withA est0)) (·.host.returns) = some [(.chan .a, .invalidLength)] := by
  decide
theorem test_V43_3b : see (feed (.hostCall 0 (.sendIOLData .a [] 65 1)) (withA (seqChan .failed 5 0))) (·.host.returns) =
    some [(.chan .a, .notEstablished)] := by
  decide
theorem test_V43_4 : see (feed (.hostStep (.chip 0) .ok) { withA { chan0 with cqctrl := 0x80 } with
      host := { ready.host with chipTasks := [(0, { task := .setBitsRead 0x06 0x01, wait := 0 })] } })
    (·.host.chipTasks) = some [(0, { task := .writes [(0x06, 0x81)], wait := 0 })] := by
  decide

/-- The host with `initPorts` waiting under caller 0 (R205). -/
def hostInit : HostSide := { ready.host with chipTasks := [(0, { task := .initPowerOn, wait := 900 })] }

/-- `getPort` during `initPorts` (R206). -/
theorem test_getPort_during_initPorts : see (feed (.hostCall 1 (.getPort .b)) { ready with host := hostInit })
    (fun s => (s.host.returns, s.host.chipTasks == hostInit.chipTasks)) = some ([(.chip 1, .invalidChannel)], true) := by
  decide

/-- Two callers' SETBITS, one on an A register and one on a B register, between their transactions (R203, R211). -/
theorem test_setBits_of_two_callers :
    let a : Running := { task := .writes [(0x06, 0x81)], wait := 0 }
    let b : Running := { task := .setBitsRead 0x07 0x10, wait := 0 }
    see (feed (.hostCall 2 (.setBits 0x07 0x10)) { ready with host := { ready.host with chipTasks := [(5, a)] } })
      (·.host.chipTasks) = some [(2, b), (5, a)] ∧
    see (feed (.hostStep (.chip 5) .ok) { ready with host := { ready.host with chipTasks := [(2, b), (5, a)] } })
      (fun s => (s.host.chipTasks, s.host.returns, s.chA.cqctrl)) = some ([(2, b)], [(.chip 5, .ok)], 0x80) := by
  decide
theorem test_V43_7 : transferResult 0x21 2 2 = { success := false, errorFlags := [.txChecksum, .parity] } ∧
    transferResult 0x00 2 2 = { success := true, errorFlags := [] } ∧
    CqErrFlag.parity.class? = some .parityFault ∧ FaultClass.checksumFault.code = 4 := by
  decide

/-! ## Witnesses: states and operands that meet the hypotheses of the statements -/

theorem witness_DecodeEncodeRoundTrip : WellFormed (.wrClock 3 0xFF) = true ∧ WellFormed (.setmodeReserved .b) = true := by
  decide

theorem witness_StepRunsTheDecodedTransaction :
    let s : State := { ready with agenda := [spi 0x0340] }
    s.agenda = .spi 16 0x0340 .ok :: [] ∧ decode (.spi16 0x0340) = .wrInterruptEn 0 0x40 ∧
    WellFormed (.wrInterruptEn 0 0x40) = true ∧ s.boot = .ready ∧ s.host.spiLock = false := by
  decide

theorem witness_StepRunsTheDecodedModeRequest :
    let s : State := { ready with agenda := [.cmd3 0b001] }
    s.agenda = .cmd3 0b001 :: [] ∧ decode (.cmd3 0b001) = .setmodeWakeup .a ∧ WellFormed (.setmodeWakeup .a) = true := by
  decide

theorem witness_PulseComesBeforeTheTick :
    let s : State := { withA (seqChan .pulsing 0 0) with agenda := [.tick] }
    let t : State := { withB (seqChan .pulsing 4 0) with agenda := [.tick] }
    let u : State := { ready with agenda := [.tick] }
    (s.agenda = .tick :: [] ∧ (s.chan .a).wuState = .pulsing ∧ (s.chan Chan.a.other).wuState ≠ .pulsing) ∧
    (t.agenda = .tick :: [] ∧ (t.chan .b).wuState = .pulsing ∧ (t.chan Chan.b.other).wuState ≠ .pulsing) ∧
    u.agenda = .tick :: [] ∧ ∀ x, (u.chan x).wuState ≠ .pulsing := by
  refine ⟨by decide, by decide, rfl, ?_⟩
  intro x
  cases x <;> decide

theorem witness_TransactionLengthsOtherThanSixteen :
    ready.boot = .ready ∧ ready.host.spiLock = false ∧ 0 < 16 ∧ 15 < 16 ∧ 16 < 17 := by
  decide

theorem witness_NoTransactionBeforeTheBootWait :
    State.reset.boot ≠ .ready ∧ State.reset.host.spiLock = false ∧
    ({ ready with boot := .booting 1 } : State).boot ≠ .ready ∧ ({ ready with boot := .booting 1 } : State).host.spiLock = false := by
  decide

theorem witness_FailedTransactionIsWholeOrNothing :
    ready.boot = .ready ∧ ready.host.spiLock = false ∧ ready.spi.phase = .idle := by
  decide

theorem witness_MisaddressedTransactionChangesNothing :
    ready.spi.phase = .idle ∧ chipField? (.wrClock 1 0xFF) = some 1 ∧ (1 : ChipAddr) ≠ ready.params.chipAddr ∧
    chipField? (.rd 3 0x00 0x00) = some 3 ∧ (3 : ChipAddr) ≠ ready.params.chipAddr := by
  decide

theorem witness_IgnoredWritesChangeNothing : (0 : ChipAddr) = ready.params.chipAddr := by
  decide
theorem witness_StorageRegistersWrite : (0 : ChipAddr) = ready.params.chipAddr := by
  decide
theorem witness_StorageRegistersRead : (0 : ChipAddr) = ready.params.chipAddr := by
  decide
theorem witness_InterruptEnableMasksOnlyTheOutput : (0 : ChipAddr) = ready.params.chipAddr := by
  decide
theorem witness_InterruptReadReturnsAndClears : (0 : ChipAddr) = ready.params.chipAddr := by
  decide
theorem witness_CqErrReadReturnsAndClears : (0 : ChipAddr) = ready.params.chipAddr := by
  decide
theorem witness_MsgCtrlStoresItsOptions : (0 : ChipAddr) = ready.params.chipAddr := by
  decide
theorem witness_StatusAndRevIdReads : (0 : ChipAddr) = ready.params.chipAddr := by
  decide

theorem witness_LevelReadAnswersTheFifoLength :
    let s := withA { chan0 with rxfifo := List.replicate 64 0x00 }
    (0 : ChipAddr) = s.params.chipAddr ∧ (s.chan .a).rxfifo.length ≤ 64 ∧ (s.chan .b).rxfifo.length ≤ 64 := by
  decide

theorem witness_chan0_inv : chan0.Inv := by
  constructor <;> decide

theorem witness_CqCtrlReadAnswersTheStoredBits :
    (0 : ChipAddr) = ready.params.chipAddr ∧ (ready.chan .a).Inv ∧ (ready.chan .b).Inv :=
  ⟨rfl, witness_chan0_inv, witness_chan0_inv⟩

theorem witness_CqCtrlWriteWithoutSend : (0 : ChipAddr) = ready.params.chipAddr ∧ (0xFE : Byte).getLsbD 0 = false := by
  decide

/-- A channel that can send. -/
def loaded0 : Channel := { open0 with txfifo := [0xA2, 0x00] }

/-- One that can send once its reply is discarded by RxFifoRst. -/
def loadedBusy0 : Channel := { loaded0 with xfer := .xAwait, rxfifo := [0x3C], rxmsg := [0x3C] }

/-- CQSend alone, with every stored bit and WuPuls, and with RxFifoRst while a reply is awaited. -/
theorem witness_CqSendSendsTheMessage :
    let s := withA loaded0
    let t := withA loadedBusy0
    ((0 : ChipAddr) = s.params.chipAddr ∧ (s.chan .a).framerEn = true ∧ (s.chan .a).xfer = .xIdle ∧
      (s.chan .a).txfifo ≠ [] ∧ (s.chan .a).msgCtrl.getLsbD 6 = false) ∧
    (∀ v ∈ [(0x01 : Byte), 0xF3], v.getLsbD 0 = true ∧ v.getLsbD 3 = false) ∧
    ((0 : ChipAddr) = t.params.chipAddr ∧ (t.chan .a).framerEn = true ∧ (t.chan .a).xfer = .xAwait ∧
      (t.chan .a).txfifo ≠ [] ∧ (t.chan .a).msgCtrl.getLsbD 6 = false) ∧
    ∀ v ∈ [(0x05 : Byte), 0xF7], v.getLsbD 0 = true ∧ v.getLsbD 2 = true ∧ v.getLsbD 3 = false := by
  decide

theorem witness_CqSendUnderTheTransmitCheck :
    let s := withB { loaded0 with msgCtrl := 0xC8 }
    let t := withB { loadedBusy0 with msgCtrl := 0x40 }
    ((0 : ChipAddr) = s.params.chipAddr ∧ (s.chan .b).framerEn = true ∧ (s.chan .b).xfer = .xIdle ∧
      (s.chan .b).txfifo ≠ [] ∧ (s.chan .b).msgCtrl.getLsbD 6 = true) ∧
    (∀ v ∈ [(0x01 : Byte), 0x13], v.getLsbD 0 = true ∧ v.getLsbD 3 = false) ∧
    ((0 : ChipAddr) = t.params.chipAddr ∧ (t.chan .b).framerEn = true ∧ (t.chan .b).xfer = .xAwait ∧
      (t.chan .b).txfifo ≠ [] ∧ (t.chan .b).msgCtrl.getLsbD 6 = true) ∧
    (∀ v ∈ [(0x05 : Byte), 0xF7], v.getLsbD 0 = true ∧ v.getLsbD 2 = true ∧ v.getLsbD 3 = false) ∧
    (∃ ok, Config.cksOk .tx (s.chan .b).txfifo = ok) ∧ ∃ ok, Config.cksOk .tx (t.chan .b).txfifo = ok :=
  ⟨by decide, by decide, by decide, by decide, ⟨_, rfl⟩, _, rfl⟩

/-- The three clauses: the framer off; nothing to send, with and without TxFifoRst (V40.4: 0x0D) and RxFifoRst; a reply
awaited. -/
theorem witness_CqSendIgnoredEmptyOrInFlight :
    (0 : ChipAddr) = ready.params.chipAddr ∧
    (∀ v ∈ [(0x01 : Byte), 0x09, 0x05, 0x0D, 0xFF], v.getLsbD 0 = true) ∧
    (ready.chan .a).framerEn = false ∧
    (((withA open0).chan .a).framerEn = true ∧ ((withA open0).chan .a).xfer = .xIdle ∧ ((withA open0).chan .a).txfifo = []) ∧
    (((withA loadedBusy0).chan .a).framerEn = true ∧ (0x0D : Byte).getLsbD 2 = true ∧ (0x0D : Byte).getLsbD 3 = true) ∧
    (((withA loaded0).chan .a).framerEn = true ∧ ((withA loaded0).chan .a).xfer = .xIdle ∧ (0x09 : Byte).getLsbD 3 = true) ∧
    (((withA loadedBusy0).chan .a).framerEn = true ∧ ((withA loadedBusy0).chan .a).xfer = .xAwait ∧
      (0x01 : Byte).getLsbD 2 = false ∧ (0xFB : Byte).getLsbD 0 = true ∧ (0xFB : Byte).getLsbD 2 = false) := by
  decide

theorem witness_ChanStatStoresFramerEnable : (0 : ChipAddr) = ready.params.chipAddr ∧ (0x7F : Byte).getLsbD 7 = false := by
  decide

theorem witness_RstResetsTheWholeBlock :
    (0 : ChipAddr) = ready.params.chipAddr ∧ (0x80 : Byte).getLsbD 7 = true ∧ (0xFF : Byte).getLsbD 7 = true := by
  decide

theorem witness_TxRxDataWritePushes :
    (0 : ChipAddr) = ready.params.chipAddr ∧
    ((withA { chan0 with txfifo := List.replicate 63 0x00 }).chan .a).txfifo.length < 64 ∧
    64 ≤ ((withA { chan0 with txfifo := List.replicate 64 0x00 }).chan .a).txfifo.length := by
  decide

theorem witness_TxRxDataReadPops :
    (0 : ChipAddr) = ready.params.chipAddr ∧ ((withA { chan0 with rxfifo := [9] }).chan .a).rxfifo = 9 :: [] ∧
    (ready.chan .a).rxfifo = [] := by
  decide

theorem witness_WriteThenReadLaw :
    (0 : ChipAddr) = ready.params.chipAddr ∧
    ((0x0E : RegAddr) ≤ 0x0E ∧ (0x0E : RegAddr) ≤ 0x1D) ∧ ((0x0E : RegAddr) ≤ 0x1D ∧ (0x1D : RegAddr) ≤ 0x1D) ∧
    (0xE2 : Byte) &&& 0x1D = 0 ∧ (0x0C : RegAddr) = pairAddr 0x0C .a ∧ (0x0D : RegAddr) = pairAddr 0x0C .b ∧
    (0x7F : Byte).getLsbD 7 = false := by
  decide

theorem witness_GenericTransactionsComplete :
    (0 : ChipAddr) = ready.params.chipAddr ∧
    (∀ x, (0x06 : RegAddr) = pairAddr 0x06 x → (0x01 : Byte).getLsbD 0 = true → (0x01 : Byte).getLsbD 2 = false →
      ((withA loaded0).chan x).framerEn = true → ((withA loaded0).chan x).xfer ≠ .xAwait) ∧
    ((0x07 : RegAddr) = pairAddr 0x06 .b ∧ (0x01 : Byte).getLsbD 0 = true ∧ (0x01 : Byte).getLsbD 2 = false ∧
      ((withB { open0 with xfer := .xAwait }).chan .b).framerEn = true ∧
      ((withB { open0 with xfer := .xAwait }).chan .b).xfer = .xAwait) := by
  refine ⟨rfl, ?_, by decide⟩
  intro x
  cases x <;> decide

theorem witness_ready_inv : ready.Inv :=
  ⟨⟨witness_chan0_inv, witness_chan0_inv, rfl⟩, rfl⟩

theorem witness_ModeRequestInIdle :
    (ready.chan .a).wuState = .idle ∧ (ready.chan .a).mode = .inactive ∧ ready.Inv ∧ Mode.wakeup ≠ .inactive :=
  ⟨rfl, rfl, witness_ready_inv, by decide⟩

theorem witness_ModeRequestInEstablished :
    ((withB est0).chan .b).wuState = .established ∧ ((withB est0).chan .b).mode ≠ .inactive ∧ Mode.operate ≠ .inactive := by
  decide

theorem witness_ModeRequestWhileRunningIsQueued :
    ((withA (seqChan .pulsing 0 0)).chan .a).wuState = .pulsing ∧
    ((withA (seqChan .awaitingResponse 5 1)).chan .a).wuState = .awaitingResponse := by
  decide

theorem witness_ModeRequestInFailed : ((withA (seqChan .failed 5 0)).chan .a).wuState = .failed ∧ Mode.wakeup ≠ .inactive := by
  decide

theorem witness_PulseStepsTheSequence :
    (((withA (seqChan .pulsing 0 0)).chan .a).wuState = .pulsing ∧ ((withA (seqChan .pulsing 0 0)).chan .a).wuPulses < 5) ∧
    (((withA (seqChan .pulsing 4 0)).chan .a).wuState = .pulsing ∧ ((withA (seqChan .pulsing 4 0)).chan .a).wuPulses < 5) ∧
    (ready.chan .a).wuState ≠ .pulsing := by
  decide

theorem witness_TickDetectsTheAnswer :
    let s : State := { withA (seqChan .awaitingResponse 5 1) with irqFlags := 0x40 }
    (s.chan .a).wuState = .awaitingResponse ∧ (s.chan .a).wuRestart = false ∧
    (s.chan Chan.a.other).wuState ≠ .awaitingResponse ∧ s.irqFlags.getLsbD 6 = true := by
  decide

/-- The hypotheses of TickCountsAndExpires on `s`. -/
def counting (s : State) : Prop :=
  s.irqFlags.getLsbD 6 = false ∧ ((s.chan .a).wuState = .awaitingResponse → 1 ≤ (s.chan .a).wuTimer) ∧
  ((s.chan .b).wuState = .awaitingResponse → 1 ≤ (s.chan .b).wuTimer)

/-- No channel awaiting; a queued one that counts beside one that pulses again; two that fail on one tick. -/
theorem witness_TickCountsAndExpires :
    let s := { withA { seqChan .awaitingResponse 1 2 with wuRestart := true } with chB := seqChan .awaitingResponse 4 1 }
    let t := { withA (seqChan .awaitingResponse 5 1) with chB := seqChan .awaitingResponse 5 1 }
    (counting ready ∧ (ready.chan .a).wuState ≠ .awaitingResponse ∧ (ready.chan .b).wuState ≠ .awaitingResponse) ∧
    (counting s ∧ (s.chan .a).wuState = .awaitingResponse ∧ 2 ≤ (s.chan .a).wuTimer ∧
      (s.chan .b).wuState = .awaitingResponse ∧ (s.chan .b).wuTimer = 1 ∧ (s.chan .b).wuPulses < 5) ∧
    counting t ∧ ∀ x ∈ [Chan.a, .b], (t.chan x).wuState = .awaitingResponse ∧ (t.chan x).wuTimer = 1 ∧
      5 ≤ (t.chan x).wuPulses ∧ (t.chan x).wuRestart = false := by
  unfold counting
  decide

/-- For INACTIVE and for another mode: the flag set, and the fifth window at its end without it. -/
theorem witness_QueuedRequestIsReplayed :
    ∀ m ∈ [Mode.inactive, .operate],
      let s := withA { seqChan .awaitingResponse 5 1 with wuRestart := true, wuReqMode := m }
      let t : State := { s with irqFlags := 0x40 }
      ((s.chan .a).wuState = .awaitingResponse ∧ (s.chan .a).wuRestart = true ∧ (s.chan .a).wuReqMode = m ∧
        (s.chan Chan.a.other).wuState ≠ .awaitingResponse ∧ s.irqFlags.getLsbD 6 = false ∧ (s.chan .a).wuTimer = 1 ∧
        5 ≤ (s.chan .a).wuPulses) ∧
      (t.chan .a).wuState = .awaitingResponse ∧ (t.chan .a).wuRestart = true ∧ (t.chan .a).wuReqMode = m ∧
      (t.chan Chan.a.other).wuState ≠ .awaitingResponse ∧ t.irqFlags.getLsbD 6 = true := by
  decide

/-- Channel B with 2 ms left, with 1 ms left and a pulse left, with 1 ms left and none. -/
theorem witness_ChannelATakesTheSharedFlag :
    let s (c : Channel) : State := { withA (seqChan .awaitingResponse 1 1) with chB := c, irqFlags := 0x40 }
    (∀ c ∈ [seqChan .awaitingResponse 1 2, seqChan .awaitingResponse 4 1, seqChan .awaitingResponse 5 1],
      (s c).chA.wuState = .awaitingResponse ∧ (s c).chB.wuState = .awaitingResponse ∧ (s c).chA.wuRestart = false ∧
      (s c).irqFlags.getLsbD 6 = true ∧ 1 ≤ (s c).chB.wuTimer) ∧
    2 ≤ (seqChan .awaitingResponse 1 2).wuTimer ∧
    ((seqChan .awaitingResponse 4 1).wuTimer = 1 ∧ (seqChan .awaitingResponse 4 1).wuPulses < 5) ∧
    (seqChan .awaitingResponse 5 1).wuTimer = 1 ∧ 5 ≤ (seqChan .awaitingResponse 5 1).wuPulses ∧
    (seqChan .awaitingResponse 5 1).wuRestart = false := by
  decide

theorem witness_WakeUpFailsAfterFivePulsesAndEightyTicks :
    let s : State := { withB (seqChan .pulsing 0 0) with agenda := List.replicate 80 .tick }
    (s.chan .b).wuState = .pulsing ∧ (s.chan .b).wuPulses = 0 ∧ (s.chan .b).wuRestart = false ∧
    (s.chan Chan.b.other).wuState ≠ .pulsing ∧ (s.chan Chan.b.other).wuState ≠ .awaitingResponse ∧
    s.irqFlags.getLsbD 6 = false ∧ s.agenda = List.replicate 80 .tick :=
  ⟨rfl, rfl, rfl, by decide, by decide, rfl, rfl⟩

theorem witness_ReceivedCharacterIsStoredAndJudged :
    (ready.chan .a).framerEn = false ∧ ((withA open0).chan .a).framerEn = true := by
  decide

theorem witness_ReplyEndAndNoReply :
    (((withA { open0 with xfer := .xAwait }).chan .a).framerEn = true ∧
      ((withA { open0 with xfer := .xAwait }).chan .a).xfer = .xAwait) ∧
    (ready.chan .b).framerEn = false ∧ ((withB open0).chan .b).xfer = .xIdle := by
  decide

theorem witness_EveryStepKeepsTheInvariant :
    ({ ready with agenda := [.tick] } : State).Inv ∧ ∃ t, step { ready with agenda := [.tick] } = .next t :=
  ⟨⟨⟨witness_chan0_inv, witness_chan0_inv, rfl⟩, rfl⟩, _, rfl⟩

/-- A transfer about to read the last byte of a reply of 64. -/
def lastPop : State :=
  { withA { est0 with rxfifo := [0x2D] } with
    host := { ready.host with
      chanATask := some { task := .sendPop { x := .a, expected := 64, got := List.replicate 63 0x00, elapsed := 0 } 0, wait := 0 } },
    agenda := [.hostStep (.chan .a) .ok] }

theorem witness_HostTransfersStayInBounds : lastPop.HostBounded ∧ ∃ t, step lastPop = .next t := by
  refine ⟨?_, _, rfl⟩
  intro slot r h
  rcases slot with n | x
  · cases h
  · cases x
    · cases h
      exact ⟨⟨by decide, by decide⟩, by decide⟩
    · cases h

theorem witness_ParametersAndTraceAreKept :
    (∃ t, step { ready with agenda := [spi 0x0610] } = .next t) ∧
    ({ ready with agenda := [spi 0x0610] } : State).agenda.head? ≠ some .powerOnReset :=
  ⟨⟨_, rfl⟩, by decide⟩

theorem witness_ChannelsAreIndependent :
    (eventChan? (.lineRxChar .a 0x3C true true) = some .a ∧ ∃ t, runEvent (.lineRxChar .a 0x3C true true) ready = .next t) ∧
    (pairChan? (.chanStat .b) = some .b ∧ ¬(Reg.chanStat .b = .chanStat .b ∧ (0x7F : Byte).getLsbD 7 = true) ∧
      ∃ t, exec (writeInstr (.chanStat .b) 0 0x7F) ready = .next t) ∧
    (pairChan? (.txRxData .a) = some .a ∧ ∃ t, exec (readInstr (.txRxData .a) 0 0x00) ready = .next t) ∧
    (ready.chan Chan.a.other).wuState ≠ .awaitingResponse ∧ ∃ t, runEvent .tick ready = .next t :=
  ⟨⟨rfl, _, rfl⟩, ⟨rfl, by decide, _, rfl⟩, ⟨rfl, _, rfl⟩, by decide, _, rfl⟩

/-- `ready` with that task, about to act, at chip level under caller 3. -/
def withTask (t : Task) : State := { ready with host := { ready.host with chipTasks := [(3, { task := t, wait := 0 })] } }

theorem witness_RegisterAccessOutcomes :
    let s := withTask (.read 0x1F)
    let t := withTask (.writes [(0x00, 0xFF)])
    (s.boot = .ready ∧ s.host.spiLock = false ∧ s.host.task (.chip 3) = some { task := .read 0x1F, wait := 0 }) ∧
    (t.boot = .ready ∧ t.host.spiLock = false ∧ t.host.task (.chip 3) = some { task := .writes [(0x00, 0xFF)], wait := 0 }) ∧
    (∃ u, runEvent (.spi 16 (spiWord 0#1 t.params.chipAddr 0x00 0xFF) .ok) t = .next u) ∧
    (∃ u, runEvent (.spi 16 (spiWord 0#1 t.params.chipAddr 0x00 0xFF) (.fail true)) t = .next u) ∧
    ∃ u, runEvent (.spi 16 (spiWord 0#1 t.params.chipAddr 0x00 0xFF) (.fail false)) t = .next u :=
  ⟨by decide, by decide, ⟨_, rfl⟩, ⟨_, rfl⟩, _, rfl⟩

theorem witness_SendChecksComeBeforeAnyTransaction :
    (ready.host.task (.chan .a) = none ∧ (ready.chan .a).wuState ≠ .established) ∧
    (withA est0).host.task (.chan .a) = none ∧ ((withA est0).chan .a).wuState = .established ∧ 64 < 65 ∧ 64 ≤ 64 ∧
    0 ≤ (List.replicate 64 (0x00 : Byte)).length ∧ 64 ≤ (List.replicate 64 (0x00 : Byte)).length := by
  decide

theorem witness_HostResetEndsInResetWithFramersEnabled :
    let s : State := { withTask (.writes resetWrites) with agenda := List.replicate 4 (.hostStep (.chip 3) .ok) }
    s.boot = .ready ∧ s.host.spiLock = false ∧ s.host.task (.chip 3) = some { task := .writes resetWrites, wait := 0 } ∧
    s.agenda = List.replicate 4 (.hostStep (.chip 3) .ok) :=
  ⟨rfl, rfl, rfl, rfl⟩

/-- `initPorts` just called after reset, with the waits and actions it takes to come. -/
def startUp : State :=
  { State.reset with
    host := { State.reset.host with chipTasks := [(0, { task := .initPowerOff, wait := 0 })] },
    agenda := .hostStep (.chip 0) .ok :: (List.replicate 1000 .tick ++ .hostStep (.chip 0) .ok ::
      (List.replicate 300 .tick ++ [.hostStep (.chip 0) .ok, .hostStep (.chip 0) .ok])) }

theorem witness_StartUpTakesItsWaits :
    startUp.host.spiLock = false ∧ startUp.host.task (.chip 0) = some { task := .initPowerOff, wait := 0 } ∧
    (∀ x, (startUp.chan x).wuState ≠ .pulsing ∧ (startUp.chan x).wuState ≠ .awaitingResponse) ∧
    startUp.agenda = .hostStep (.chip 0) .ok :: (List.replicate 1000 .tick ++ .hostStep (.chip 0) .ok ::
      (List.replicate 300 .tick ++ [.hostStep (.chip 0) .ok, .hostStep (.chip 0) .ok])) ∧
    0 < 1000 ∧ 999 < 1000 ∧ 0 < 300 ∧ 299 < 300 := by
  refine ⟨rfl, rfl, ?_, rfl, by decide, by decide, by decide, by decide⟩
  intro x
  cases x <;> decide

/-- A transfer of `n` bytes on channel A about to read the level, its reply and one byte more in the FIFO. -/
def replyReady (n : Nat) : State :=
  { withA { est0 with rxfifo := List.replicate n 0x5A ++ [0x77] } with
    host := { ready.host with
      chanATask := some { task := .sendLevel { x := .a, expected := (List.replicate n (0x5A : Byte)).length, got := [], elapsed := 0 }, wait := 0 } },
    agenda := List.replicate ((List.replicate n (0x5A : Byte)).length + 2) (.hostStep (.chan .a) .ok) }

theorem witness_ReadyReplyIsReadInOrder :
    ∀ n ∈ [0, 1, 63],
      let s := replyReady n
      let bytes : List Byte := List.replicate n 0x5A
      s.boot = .ready ∧ s.host.spiLock = false ∧ (s.chan .a).rxfifo = bytes ++ [0x77] ∧ (bytes ++ [(0x77 : Byte)]).length ≤ 64 ∧
      s.host.task (.chan .a) =
        some { task := .sendLevel { x := .a, expected := bytes.length, got := [], elapsed := 0 }, wait := 0 } ∧
      s.agenda = List.replicate (bytes.length + 2) (.hostStep (.chan .a) .ok) := by
  intro n hn
  refine ⟨rfl, rfl, rfl, ?_, rfl, rfl⟩
  simp only [List.mem_cons, List.not_mem_nil, or_false] at hn
  simp only [List.length_append, List.length_replicate, List.length_cons, List.length_nil]
  omega

theorem witness_OwnTransactionLatchesItsCommandByte :
    (fieldChip 0x0C7F#16 = ready.params.chipAddr ∧
      (∀ x, ¬((0x0C7F#16).extractLsb' 15 1 = 0#1 ∧ fieldAddr 0x0C7F#16 = pairAddr 0x0C x ∧ (0x0C7F#16).getLsbD 7 = true)) ∧
      ∃ t, exec (decode (.spi16 0x0C7F#16)) ready = .next t) ∧
    (7 < 16 ∧ 8 < 16 ∧ 15 < 16 ∧ ready.boot = .ready ∧ ready.host.spiLock = false) ∧
    ((∃ t, runEvent (.spi 7 0x0C7F#16 .ok) ready = .next t) ∧ (∃ t, runEvent (.spi 8 0x0C7F#16 .ok) ready = .next t) ∧
      ∃ t, runEvent (.spi 15 0x0C7F#16 .ok) ready = .next t) ∧
    fieldChip 0x2C7F#16 ≠ ready.params.chipAddr ∧ ∃ t, runEvent (.spi 8 0x2C7F#16 .ok) ready = .next t := by
  refine ⟨⟨by decide, ?_, _, rfl⟩, by decide, ⟨⟨_, rfl⟩, ⟨_, rfl⟩, _, rfl⟩, by decide, _, rfl⟩
  intro x
  cases x <;> decide

/-- A caller with nothing running beside one in `initPorts`; the highest register address. -/
theorem witness_ChipLevelCallsDoNotWaitForEachOther :
    let s : State := { ready with host := hostInit }
    s.host.task (.chip 1) = none ∧ (Slot.chip 0 ≠ .chip 1) ∧ (s.host.task (.chip 0)).isSome = true ∧
    (0x1F : RegAddr).toNat ≤ 0x1F := by
  decide

end Sys2Proof.Tests
end

section
/-!
The statements of 00_scope.md: what a step does with the frame at the head of the agenda (R8, R70).
-/

namespace Sys2Proof.Machine

open Sys2Proof

/-- The event at the head of the agenda happens and leaves it (R70). A `Tick` is excepted, because a pending `PULSE` goes
before it (R148). -/
theorem step_of_agenda_cons {s : State} {e : Event} {rest : List Event} (ha : s.agenda = e :: rest) (he : e ≠ .tick) :
    step s = runEvent e { s with agenda := rest } := by
  unfold step stepAgenda
  split
  case h_1 hnil => simp [ha] at hnil
  case h_2 htick =>
    have hhead := (List.cons.inj (ha.symm.trans htick)).1
    exact absurd hhead he
  case h_3 hcons =>
    obtain ⟨rfl, rfl⟩ := List.cons.inj (ha.symm.trans hcons)
    rfl

/-- Settles O5: the event is delivered, and `deliverSpi_ok` says what delivering a transaction with status ok does. -/
theorem stepRunsTheDecodedTransaction : Obligations.StepRunsTheDecodedTransaction := by
  intro s w i rest ha hi _ hb hl
  subst hi
  calc step s
      _ = runEvent (.spi 16 w .ok) { s with agenda := rest } := step_of_agenda_cons ha (by simp)
      _ = deliverSpi 16 w .ok { s with agenda := rest } := rfl
      _ = _ := deliverSpi_ok hb hl

/-- Settles O6: a mode request is `exec` of its decoded word, in every start-up phase. -/
theorem stepRunsTheDecodedModeRequest : Obligations.StepRunsTheDecodedModeRequest := by
  intro s w i rest ha hi _
  subst hi
  calc step s
      _ = runEvent (.cmd3 w) { s with agenda := rest } := step_of_agenda_cons ha (by simp)
      _ = exec (decode (.cmd3 w)) { s with agenda := rest } := rfl

end Sys2Proof.Machine
end

section
/-!
The invariants of 10_state.md R36: the state after reset meets them (R45), and every step keeps them. What each operation of
the block keeps is in Laws/Invariant.lean; here are the transport, the host sequences and the events.
-/

namespace Sys2Proof.Machine

open Sys2Proof

/-! ## What keeps the invariant of the machine -/

/-- An operation that keeps the host side keeps the lock free; what is left to show is the block's invariant. -/
theorem State.Inv.of_kept {s t : State} (h : s.Inv) (hk : Kept s t) (hb : t.BlockInv) : t.Inv :=
  ⟨hb, hk.host ▸ h.lock⟩

/-- A change of the host side that leaves the lock free. -/
theorem State.Inv.of_sameBlock {s t : State} (h : s.Inv) (ha : t.chA = s.chA) (hb : t.chB = s.chB) (hp : t.spi = s.spi)
    (hl : t.host.spiLock = s.host.spiLock) : t.Inv :=
  ⟨h.block.of_same ha hb (hp ▸ rfl), hl.trans h.lock⟩

/-- An operation that always answers keeps the invariant if the state it answers meets it. -/
theorem State.Inv.of_next {u t : State} (ht : (.next u : Outcome) = .next t) (hu : u.Inv) : t.Inv := by
  injection ht with e
  exact e ▸ hu

theorem become_keeps_inv (slot : Slot) (t : Task) (n : Nat) {s : State} (h : s.Inv) : (become slot t n s).Inv :=
  h.of_sameBlock rfl rfl rfl (become_lock _ _ _ _)

theorem finish_keeps_inv (slot : Slot) (r : HostResult) {s : State} (h : s.Inv) : (finish slot r s).Inv :=
  h.of_sameBlock rfl rfl rfl (finish_lock _ _ _)

/-! ## The transport -/

theorem setExchange_inv (ok : Bool) {s : State} (h : s.BlockInv) : (setExchange ok s).BlockInv := h.of_same rfl rfl rfl

/-- What a transaction of any length does keeps the block's invariant (R97 (c), R110). -/
theorem clockedIn_inv {clocks : Nat} {sdi : BitVec 16} {s t : State} (h : s.BlockInv)
    (ht : clockedIn clocks sdi s = .next t) : t.BlockInv := by
  rcases clockedIn_eq_next ht with ⟨-, he⟩ | ⟨-, rfl⟩
  · exact exec_decode_inv (.spi16 sdi) h he
  · exact spiShift_inv _ h

theorem access_inv {clocks : Nat} {sdi : BitVec 16} {st : SpiStatus} {s t : State} (h : s.BlockInv)
    (ht : access clocks sdi st s = .next t) : t.BlockInv := by
  rcases access_eq_next ht with ⟨u, ok, hu, rfl⟩ | rfl
  · exact setExchange_inv ok (clockedIn_inv h hu)
  · exact setExchange_inv false (spiShift_inv _ h)

/-- A delivered transaction keeps the invariant: the lock it takes is given back (R211). -/
theorem deliverSpi_keeps_inv {clocks : Nat} {sdi : BitVec 16} {st : SpiStatus} {s t : State} (h : s.Inv)
    (ht : deliverSpi clocks sdi st s = .next t) : t.Inv := by
  refine h.of_kept (deliverSpi_kept ht) ?_
  obtain ⟨-, -, u, hu, rfl⟩ := deliverSpi_eq_next ht
  have hs : (acquireLock s).BlockInv := h.block.of_same rfl rfl rfl
  exact (access_inv hs hu).of_same rfl rfl rfl

theorem deliverCmd3_keeps_inv {w : BitVec 3} {s t : State} (h : s.Inv) (ht : deliverCmd3 w s = .next t) : t.Inv :=
  h.of_kept (exec_decode_kept (.cmd3 w) ht) (exec_decode_inv (.cmd3 w) h.block ht)

/-! ## The host sequences -/

/-- One transaction of a sequence keeps the invariant if what follows it on success does. -/
theorem transact_keeps_inv {slot : Slot} {rw : BitVec 1} {a : RegAddr} {d : Byte} {st : SpiStatus}
    {k : Byte → State → State} {s t : State} (h : s.Inv) (ht : transact slot rw a d st k s = .next t)
    (hk : ∀ b u, u.Inv → (k b u).Inv) : t.Inv := by
  obtain ⟨u, hu, ⟨-, rfl⟩ | ⟨-, rfl⟩⟩ := transact_eq_next ht
  · exact hk _ _ (deliverSpi_keeps_inv h hu)
  · exact finish_keeps_inv slot _ (deliverSpi_keeps_inv h hu)

theorem afterWrites_keeps_inv (slot : Slot) (mk : List (RegAddr × Byte) → Task) {fin : State → State}
    (hf : ∀ u : State, u.Inv → (fin u).Inv) (ws : List (RegAddr × Byte)) {s : State} (h : s.Inv) :
    (afterWrites slot mk fin ws s).Inv := by
  cases ws with
  | nil => exact hf s h
  | cons w ws => exact become_keeps_inv slot _ 0 h

theorem finishInit_keeps_inv (slot : Slot) {s : State} (h : s.Inv) : (finishInit slot s).Inv :=
  finish_keeps_inv slot _ (h.of_sameBlock rfl rfl rfl rfl)

theorem afterPops_keeps_inv (slot : Slot) (c : SendCtx) {s : State} (h : s.Inv) : (afterPops slot c s).Inv := by
  unfold afterPops
  split
  · exact become_keeps_inv slot _ _ h
  · split <;> exact become_keeps_inv slot _ _ h

theorem afterLevel_keeps_inv (slot : Slot) (c : SendCtx) (lvl : Byte) {s : State} (h : s.Inv) :
    (afterLevel slot c lvl s).Inv := by
  unfold afterLevel
  split
  · exact afterPops_keeps_inv slot c h
  · exact become_keeps_inv slot _ _ h

theorem afterPop_keeps_inv (slot : Slot) (c : SendCtx) (n : Nat) (b : Byte) {s : State} (h : s.Inv) :
    (afterPop slot c n b s).Inv := by
  cases n with
  | zero => exact afterPops_keeps_inv slot _ h
  | succ k => exact become_keeps_inv slot _ _ h

/-- Every action of a running sequence keeps the invariant (R200 to R210): it is a transaction, a mode request, or on the
host side alone. -/
theorem runTask_keeps_inv {slot : Slot} {task : Task} {st : SpiStatus} {s t : State} (h : s.Inv)
    (ht : runTask slot task st s = .next t) : t.Inv := by
  unfold runTask at ht
  cases task with
  | writes ws =>
    cases ws with
    | nil => exact .of_next ht (finish_keeps_inv slot _ h)
    | cons w ws =>
      exact transact_keeps_inv h ht fun _ _ => afterWrites_keeps_inv slot _ (fun _ => finish_keeps_inv slot .ok) ws
  | read a => exact transact_keeps_inv h ht fun _ _ => finish_keeps_inv slot _
  | setBitsRead a m => exact transact_keeps_inv h ht fun _ _ => become_keeps_inv slot _ 0
  | initPowerOff => exact .of_next ht (become_keeps_inv slot _ _ (h.of_sameBlock rfl rfl rfl rfl))
  | initPowerOn => exact .of_next ht (become_keeps_inv slot _ _ (h.of_sameBlock rfl rfl rfl rfl))
  | initWrites ws =>
    cases ws with
    | nil => exact .of_next ht (finishInit_keeps_inv slot h)
    | cons w ws =>
      exact transact_keeps_inv h ht fun _ _ => afterWrites_keeps_inv slot _ (fun _ => finishInit_keeps_inv slot) ws
  | modeRequest x m =>
    obtain ⟨u, hu, e⟩ := onNext_eq_next.mp ht
    exact .of_next e (become_keeps_inv slot _ _ (deliverCmd3_keeps_inv h hu))
  | modePoll x =>
    refine .of_next ht ?_
    split
    · exact become_keeps_inv slot _ _ h
    · split <;> exact finish_keeps_inv slot _ h
  | sendClearRead c load => exact transact_keeps_inv h ht fun _ _ => become_keeps_inv slot _ 0
  | sendClearWrite c load b => exact transact_keeps_inv h ht fun _ _ => become_keeps_inv slot _ 0
  | sendLoad c load =>
    cases load with
    | nil => exact transact_keeps_inv h ht fun _ _ => become_keeps_inv slot _ 0
    | cons b load => exact transact_keeps_inv h ht fun _ _ => become_keeps_inv slot _ 0
  | sendGoWrite c b => exact transact_keeps_inv h ht fun _ _ => become_keeps_inv slot _ 0
  | sendLevel c => exact transact_keeps_inv h ht fun b _ => afterLevel_keeps_inv slot c b
  | sendPop c n => exact transact_keeps_inv h ht fun b _ => afterPop_keeps_inv slot c n b
  | sendErr c timedOut => exact transact_keeps_inv h ht fun _ _ => finish_keeps_inv slot _

/-- A call with an address keeps the invariant if what it starts does (R201). -/
theorem withAddress_keeps_inv {address : Nat} {k : RegAddr → State → State} {s t : State}
    (ht : withAddress address k s = .next t) (hk : ∀ a, (k a s).Inv) : t.Inv := by
  unfold withAddress at ht
  split at ht
  · cases ht
  · exact .of_next ht (hk _)

theorem startSend_keeps_inv (slot : Slot) (x : Chan) (out : List Byte) (n expected : Nat) {s : State} (h : s.Inv) :
    (startSend slot x out n expected s).Inv := by
  unfold startSend
  split
  · exact finish_keeps_inv slot _ h
  · split
    · exact finish_keeps_inv slot _ h
    · exact become_keeps_inv slot _ _ (h.of_sameBlock rfl rfl rfl rfl)

/-- The start of a call is on the host side alone (R201 to R208). -/
theorem startCall_keeps_inv {caller : Nat} {c : HostCall} {s t : State} (h : s.Inv)
    (ht : startCall caller c s = .next t) : t.Inv := by
  unfold startCall at ht
  cases c with
  | writeRegister address v => exact withAddress_keeps_inv ht fun _ => become_keeps_inv _ _ _ h
  | readRegister address => exact withAddress_keeps_inv ht fun _ => become_keeps_inv _ _ _ h
  | setBits address m => exact withAddress_keeps_inv ht fun _ => become_keeps_inv _ _ _ h
  | reset => exact .of_next ht (become_keeps_inv _ _ _ h)
  | initPorts => exact .of_next ht (become_keeps_inv _ _ _ h)
  | getPort x => exact .of_next ht (h.of_sameBlock rfl rfl rfl rfl)
  | setMode x m => exact .of_next ht (become_keeps_inv _ _ _ h)
  | sendIOLData x out n expected => exact .of_next ht (startSend_keeps_inv _ x out n expected h)

/-! ## Events -/

theorem pulseStep_keeps_inv {x : Chan} {s t : State} (h : s.Inv) (ht : pulseStep x s = .next t) : t.Inv :=
  h.of_kept (pulseStep_kept ht) (pulseStep_inv h.block ht)

/-- A tick keeps the invariant: the sequencers do, and the waits it counts down are no part of it (R139, R200). -/
theorem tickAll_keeps_inv {s : State} (h : s.Inv) : (tickAll s).Inv :=
  (h.of_kept (tickSequencers_kept s) (tickSequencers_inv h.block)).of_sameBlock rfl rfl rfl rfl

theorem powerOnReset_keeps_inv {s : State} (h : s.Inv) : (powerOnReset s).Inv :=
  ⟨(blockReset_inv s).of_same rfl rfl rfl, h.lock⟩

/-- Every event keeps the invariant (R8, R99). -/
theorem runEvent_keeps_inv {e : Event} {s t : State} (h : s.Inv) (ht : runEvent e s = .next t) : t.Inv := by
  cases e with
  | spi clocks sdi st => exact deliverSpi_keeps_inv h ht
  | cmd3 w => exact deliverCmd3_keeps_inv h ht
  | tick => exact .of_next ht (tickAll_keeps_inv h)
  | pulse x => exact pulseStep_keeps_inv h ht
  | lineWurq x => exact .of_next ht (h.of_kept (setIrq_kept _ s) (setIrq_inv _ h.block))
  | lineRxChar x b p f =>
    exact .of_next ht (h.of_kept (lineRxChar_kept x b p f s) (lineRxChar_inv x b p f h.block))
  | lineRxEnd x => exact .of_next ht (h.of_kept (lineRxEnd_kept x s) (lineRxEnd_inv x h.block))
  | lineNoReply x => exact .of_next ht (h.of_kept (lineNoReply_kept x s) (lineNoReply_inv x h.block))
  | cycleErr x => exact .of_next ht (h.of_kept (latchFault_kept x _ s) (latchFault_inv x _ h.block))
  | statusEvent st fA fB => exact .of_next ht (h.of_sameBlock rfl rfl rfl rfl)
  | powerOnReset => exact .of_next ht (powerOnReset_keeps_inv h)
  | hostCall caller c => exact startCall_keeps_inv h (hostCall_eq_next ht).1
  | hostStep slot st =>
    obtain ⟨task, -, hr⟩ := hostStep_eq_next ht
    exact runTask_keeps_inv h hr

/-- Settles O48: a step is the urgent pulse, nothing, or the event at the head of the agenda (`step_eq_next`), and each keeps
the invariant. -/
theorem everyStepKeepsTheInvariant : Obligations.EveryStepKeepsTheInvariant := by
  intro s t h ht
  rcases step_eq_next ht with ⟨x, hp⟩ | ⟨-, rfl⟩ | ⟨e, rest, -, he⟩
  · exact pulseStep_keeps_inv h hp
  · exact h
  · exact runEvent_keeps_inv (s := { s with agenda := rest }) (h.of_sameBlock rfl rfl rfl rfl) he

/-! ## Reset -/

/-- No host sequence runs after power-on reset. -/
theorem reset_task (slot : Slot) : State.reset.host.task slot = none := by
  rcases slot with n | x
  · rfl
  · cases x <;> rfl

theorem reset_inv : State.reset.Inv := ⟨⟨resetWith_inv _ _ _, resetWith_inv _ _ _, rfl⟩, rfl⟩

/-- Settles O47: both channels hold reset values (`resetWith_inv`), and no sequence runs that could be out of bounds. -/
theorem resetMeetsTheInvariant : Obligations.ResetMeetsTheInvariant := by
  refine ⟨reset_inv, fun slot r hr => ?_⟩
  rw [reset_task slot] at hr
  cases hr

/-- The reset values are R45's, whatever the three it leaves unspecified are. -/
theorem resetWith_atReset (m : Mode) (speed : BitVec 2) (baud : Nat) : (Channel.resetWith m speed baud).AtReset false := by
  constructor <;> rfl

/-- Settles O46: the channels by `resetWith_atReset`, the rest by the values `State.reset` is written with. -/
theorem resetState : Obligations.ResetState := by
  refine ⟨fun x => ?_, rfl, rfl, rfl, rfl, rfl, rfl⟩
  cases x <;> exact resetWith_atReset _ _ _

/-- After the register reset both channels hold R45's values (R262). -/
theorem blockReset_chan_atReset (s : State) (x : Chan) : ((blockReset s).chan x).AtReset false := by
  cases x <;> exact resetWith_atReset _ _ _

@[simp] theorem powerOnReset_chan (s : State) (x : Chan) : (powerOnReset s).chan x = (blockReset s).chan x := by
  cases x <;> rfl

/-- With no flag latched the interrupt output is high, whatever InterruptEn enables (R19). -/
theorem irqN_of_no_flags {s : State} (h : s.irqFlags = 0x00) : s.irqN = true := by
  simp [State.irqN, h]

/-- Settles O59: power-on reset is the register reset with an empty trace and the start-up phase at its beginning. -/
theorem powerOnResetResetsTheWholeBlock : Obligations.PowerOnResetResetsTheWholeBlock := by
  intro s
  have hchan : ∀ x, ((powerOnReset s).chan x).AtReset false := by
    intro x
    rw [powerOnReset_chan]
    exact blockReset_chan_atReset s x
  exact ⟨powerOnReset s, rfl, hchan, rfl, rfl, irqN_of_no_flags rfl, rfl, rfl, rfl, rfl, rfl, rfl, rfl, rfl⟩

end Sys2Proof.Machine
end

section
/-!
Register accesses apart from the SPI port. Nothing a register access does reads the port or the model's count of free
values, so it is known from its effect on the state before the transaction (`writeInstr_completes`, `readInstr_answers`).
Two accesses are excepted because they draw free values: the register reset (R262) and a pop of an empty FIFO (R162).
-/

namespace Sys2Proof.Machine

open Sys2Proof

/-! ## The state under another port -/

/-- The state with that SPI port and that count of free values. -/
def State.withPort (p : SpiPort) (n : Nat) (s : State) : State := { s with spi := p, draws := n }

@[simp] theorem withPort_self (s : State) : s.withPort s.spi s.draws = s := rfl
@[simp] theorem withPort_spi (p : SpiPort) (n : Nat) (s : State) : (s.withPort p n).spi = p := rfl
@[simp] theorem withPort_chan (p : SpiPort) (n : Nat) (s : State) (x : Chan) : (s.withPort p n).chan x = s.chan x := by
  cases x <;> rfl

theorem setChan_withPort (x : Chan) (c : Channel) (p : SpiPort) (n : Nat) (s : State) :
    (s.withPort p n).setChan x c = (s.setChan x c).withPort p n := by
  cases x <;> rfl

theorem latchFault_withPort (x : Chan) (k : CqErrFlag) (p : SpiPort) (n : Nat) (s : State) :
    latchFault x k (s.withPort p n) = (latchFault x k s).withPort p n := by
  cases x <;> rfl

/-- What the port carries while a transaction is served (R14, R94). -/
def shiftedPort (cmd : Byte) (s : State) : SpiPort := (spiShift cmd s).spi

theorem spiShift_eq_withPort (cmd : Byte) (s : State) : spiShift cmd s = s.withPort (shiftedPort cmd s) (s.draws + 2) := rfl

/-- A state agrees off the port with itself under any port at phase 0 that shows the same completion status. -/
theorem agreesOffPort_withPort {p : SpiPort} (n : Nat) {u : State} (hp : p.phase = .idle)
    (ho : p.exchangeOk = u.spi.exchangeOk) : AgreesOffPort (u.withPort p n) u := by
  obtain ⟨ph, cmd, sdoCmd, sdoData, ok⟩ := p
  cases hp
  cases ho
  rfl

/-! ## CQCtrl -/

/-- The triggers of a CQCtrl write but CQSend, one bit at a time, are the record update of `afterTriggers` (R22, R111). -/
theorem cqCtrlTriggers_eq (x : Chan) (v : Byte) (s : State) : cqCtrlTriggers x v s = s.afterTriggers x v := by
  unfold cqCtrlTriggers State.afterTriggers rxFifoRst txFifoRst wuPuls
  cases v.getLsbD 2 <;> cases v.getLsbD 3 <;> cases v.getLsbD 4 <;> cases x <;> rfl

theorem afterTriggers_withPort (x : Chan) (v : Byte) (p : SpiPort) (n : Nat) (s : State) :
    (s.withPort p n).afterTriggers x v = (s.afterTriggers x v).withPort p n := by
  cases x <;> rfl

theorem writeCqCtrl_of_send {v : Byte} (h : v.getLsbD 0 = true) (x : Chan) (s : State) :
    writeCqCtrl x v s = cqSend x (s.afterTriggers x v) := by
  rw [writeCqCtrl, cqSendBit, if_pos h, cqCtrlTriggers_eq]

theorem writeCqCtrl_of_not_send {v : Byte} (h : v.getLsbD 0 = false) (x : Chan) (s : State) :
    writeCqCtrl x v s = .next (s.afterTriggers x v) := by
  rw [writeCqCtrl, cqSendBit, if_neg (ne_true_of_eq_false h), cqCtrlTriggers_eq]

/-- What the other triggers leave of channel X (R22). -/
theorem afterTriggers_chan (s : State) (x : Chan) (v : Byte) :
    (s.afterTriggers x v).chan x = { s.chan x with
      cqctrl := v &&& 0xE2,
      rxfifo := if v.getLsbD 2 then [] else (s.chan x).rxfifo,
      rxmsg := if v.getLsbD 2 then [] else (s.chan x).rxmsg,
      xfer := if v.getLsbD 2 then .xIdle else (s.chan x).xfer,
      txfifo := if v.getLsbD 3 then [] else (s.chan x).txfifo } := by
  cases x <;> rfl

@[simp] theorem afterTriggers_framerEn (s : State) (x : Chan) (v : Byte) :
    ((s.afterTriggers x v).chan x).framerEn = (s.chan x).framerEn := by rw [afterTriggers_chan]
@[simp] theorem afterTriggers_msgCtrl (s : State) (x : Chan) (v : Byte) :
    ((s.afterTriggers x v).chan x).msgCtrl = (s.chan x).msgCtrl := by rw [afterTriggers_chan]
@[simp] theorem afterTriggers_cqerr (s : State) (x : Chan) (v : Byte) :
    ((s.afterTriggers x v).chan x).cqerr = (s.chan x).cqerr := by rw [afterTriggers_chan]
@[simp] theorem afterTriggers_irqFlags (s : State) (x : Chan) (v : Byte) :
    (s.afterTriggers x v).irqFlags = s.irqFlags := setChan_irqFlags x _ s

/-- No reply is awaited after the other triggers when none was, or when RxFifoRst gave it up (R165). -/
theorem afterTriggers_xfer_idle {s : State} {x : Chan} {v : Byte} (h : v.getLsbD 2 = true ∨ (s.chan x).xfer = .xIdle) :
    ((s.afterTriggers x v).chan x).xfer = .xIdle := by
  rw [afterTriggers_chan]
  rcases h with h | h <;> simp only [h, if_true, ite_self]

theorem afterTriggers_xfer_of_no_rxReset {s : State} {x : Chan} {v : Byte} (h : v.getLsbD 2 = false) :
    ((s.afterTriggers x v).chan x).xfer = (s.chan x).xfer := by
  rw [afterTriggers_chan, h]
  rfl

theorem afterTriggers_txfifo_of_no_txReset {s : State} {x : Chan} {v : Byte} (h : v.getLsbD 3 = false) :
    ((s.afterTriggers x v).chan x).txfifo = (s.chan x).txfifo := by
  rw [afterTriggers_chan, h]
  rfl

theorem afterTriggers_txfifo_nil {s : State} {x : Chan} {v : Byte} (h : v.getLsbD 3 = true ∨ (s.chan x).txfifo = []) :
    ((s.afterTriggers x v).chan x).txfifo = [] := by
  rw [afterTriggers_chan]
  rcases h with h | h <;> simp only [h, if_true, ite_self]

/-! ## CQSend -/

/-- A latched fault as one record update (R170). -/
theorem latchFault_eq (x : Chan) (k : CqErrFlag) (s : State) :
    latchFault x k s = { s.setChan x { s.chan x with cqerr := (s.chan x).cqerr ||| k.mask } with
      irqFlags := s.irqFlags ||| k.irqMask x } := by
  cases x <;> rfl

theorem cqSend_framer_off {x : Chan} {s : State} (hf : (s.chan x).framerEn = false) : cqSend x s = .next s := if_pos hf

theorem cqSend_of_empty {x : Chan} {s : State} (hf : (s.chan x).framerEn = true) (hx : (s.chan x).xfer = .xIdle)
    (he : (s.chan x).txfifo = []) : cqSend x s = .next (latchFault x .txSize s) := by
  simp [cqSend, hf, hx, he]

theorem cqSend_of_loaded {x : Chan} {s : State} (hf : (s.chan x).framerEn = true) (hx : (s.chan x).xfer = .xIdle)
    (he : (s.chan x).txfifo ≠ []) : cqSend x s = .next (sendLoaded x s) := by
  simp [cqSend, hf, hx, he]

/-- A message that fails the check under TxErDestroy: the faults are latched and the FIFO emptied (R169). -/
theorem sendLoaded_destroyed {x : Chan} {s : State} (hk : txCheckOk (s.chan x).msgCtrl (s.chan x).txfifo = false)
    (hd : txErDestroy (s.chan x).msgCtrl = true) :
    sendLoaded x s = { s.setChan x { s.chan x with cqerr := (s.chan x).cqerr ||| 0x20, txfifo := [] } with
      irqFlags := s.irqFlags ||| txErrorMask x } := by
  unfold sendLoaded
  simp only [hk, hd]
  cases x <;> rfl

/-- A message that is sent: the faults are latched when the check fails, and the reply is awaited (R166 to R168). -/
theorem sendLoaded_sent {x : Chan} {s : State} {ok : Bool} (hk : txCheckOk (s.chan x).msgCtrl (s.chan x).txfifo = ok)
    (hd : ¬(ok = false ∧ txErDestroy (s.chan x).msgCtrl = true)) :
    sendLoaded x s = { s.setChan x { s.chan x with
        cqerr := (s.chan x).cqerr ||| (if ok then 0x00 else 0x20), rxmsg := [], xfer := .xAwait,
        txfifo := if txKeepMsg (s.chan x).msgCtrl then (s.chan x).txfifo else [] } with
      irqFlags := s.irqFlags ||| (if ok then 0x00 else txErrorMask x),
      out := s.out ++ [.lineTx x (txMessage (s.chan x).msgCtrl (s.chan x).txfifo)] } := by
  unfold sendLoaded
  cases ok with
  | true =>
    simp only [hk, if_true, Bool.not_true, Bool.false_and, Bool.false_eq_true, if_false, BitVec.ofNat_eq_ofNat,
      BitVec.or_zero]
    cases x <;> rfl
  | false =>
    have hd' : txErDestroy (s.chan x).msgCtrl = false := by simpa using hd
    simp only [hk, hd', Bool.and_false, Bool.false_eq_true, if_false]
    cases x <;> rfl

/-- CQSend on a loaded FIFO, after the other triggers of the same byte, sends what they leave (R22, R166). -/
theorem writeCqCtrl_sends_loaded {s : State} {x : Chan} {v : Byte} (h0 : v.getLsbD 0 = true)
    (h3 : v.getLsbD 3 = false) (hf : (s.chan x).framerEn = true) (hx : v.getLsbD 2 = true ∨ (s.chan x).xfer = .xIdle)
    (he : (s.chan x).txfifo ≠ []) : writeCqCtrl x v s = .next (sendLoaded x (s.afterTriggers x v)) := by
  rw [writeCqCtrl_of_send h0]
  apply cqSend_of_loaded
  · rwa [afterTriggers_framerEn]
  · exact afterTriggers_xfer_idle hx
  · rwa [afterTriggers_txfifo_of_no_txReset h3]

theorem sendLoaded_withPort (x : Chan) (p : SpiPort) (n : Nat) (s : State) :
    sendLoaded x (s.withPort p n) = (sendLoaded x s).withPort p n := by
  unfold sendLoaded
  simp only [withPort_chan]
  cases txCheckOk (s.chan x).msgCtrl (s.chan x).txfifo <;> cases txErDestroy (s.chan x).msgCtrl <;> cases x <;> rfl

theorem cqSend_withPort (x : Chan) (p : SpiPort) (n : Nat) (s : State) :
    cqSend x (s.withPort p n) = onNext (cqSend x s) fun t => .next (t.withPort p n) := by
  unfold cqSend
  simp only [withPort_chan, latchFault_withPort, sendLoaded_withPort]
  split
  · rfl
  · split
    · rfl
    · split <;> rfl

/-! ## Register accesses -/

theorem txPush_withPort (x : Chan) (v : Byte) (p : SpiPort) (n : Nat) (s : State) :
    txPush x v (s.withPort p n) = (txPush x v s).withPort p n := by
  unfold txPush
  rw [withPort_chan]
  split
  · exact setChan_withPort _ _ _ _ _
  · exact latchFault_withPort _ _ _ _ _

/-- A register write does the same under every port, but for the register reset, which draws free values (R262). -/
theorem regWrite_withPort {r : Reg} {v : Byte} (hr : ∀ x, r = .chanStat x → rstBit v = false) (p : SpiPort) (n : Nat)
    (s : State) : regWrite r v (s.withPort p n) = onNext (regWrite r v s) fun t => .next (t.withPort p n) := by
  cases r with
  | txRxData x => exact congrArg Host.Outcome.next (txPush_withPort x v p n s)
  | cqCtrl x =>
    show writeCqCtrl x v (s.withPort p n) = onNext (writeCqCtrl x v s) _
    cases hv : v.getLsbD 0 with
    | true => rw [writeCqCtrl_of_send hv, writeCqCtrl_of_send hv, afterTriggers_withPort, cqSend_withPort]
    | false => rw [writeCqCtrl_of_not_send hv, writeCqCtrl_of_not_send hv, afterTriggers_withPort, onNext_next]
  | msgCtrl x => cases x <;> rfl
  | chanStat x =>
    simp only [regWrite, writeChanStat, hr x rfl, onNext_next, withPort_chan, setChan_withPort]
    rfl
  | _ => rfl

/-- A register write but the register reset leaves the port (R33, R94). -/
theorem regWrite_spi {r : Reg} {v : Byte} {s t : State} (hr : ∀ x, r = .chanStat x → rstBit v = false)
    (h : regWrite r v s = .next t) : t.spi = s.spi := by
  have hp := regWrite_withPort hr s.spi s.draws s
  rw [withPort_self, h, onNext_next] at hp
  injection hp with e
  rw [e, withPort_spi]

/-- A register read does the same under every port, but for a pop of an empty FIFO, whose value is free (R162). -/
theorem regRead_withPort {r : Reg} {s : State} (hr : ∀ x, r = .txRxData x → (s.chan x).rxfifo ≠ []) (p : SpiPort)
    (n : Nat) : regRead r (s.withPort p n) = ((regRead r s).1, (regRead r s).2.withPort p n) := by
  cases r with
  | txRxData x =>
    show rxPop x (s.withPort p n) = ((rxPop x s).1, (rxPop x s).2.withPort p n)
    unfold rxPop
    rw [withPort_chan]
    split
    · exact absurd ‹_› (hr x rfl)
    · rw [setChan_withPort]
  | rxFifoLvl x | cqCtrl x | cqErr x | msgCtrl x | chanStat x => cases x <;> rfl
  | interrupt | interruptEn | store | status | revId => rfl

/-- A register read leaves the port. -/
theorem regRead_spi (r : Reg) (s : State) : (regRead r s).2.spi = s.spi := by
  cases r with
  | txRxData x =>
    show (rxPop x s).2.spi = s.spi
    rcases rxPop_cases x s with ⟨-, e⟩ | ⟨b, rest, -, e⟩ <;> rw [e]
    exact setChan_spi _ _ _
  | cqErr x => exact setChan_spi _ _ _
  | _ => rfl

/-! ## The rows at the block's own address -/

section Own

variable {r : Reg} {chip : ChipAddr} {v : Byte} {s u : State}

/-- A write row completes as its register's write does on the state before the transaction (R110, R113). -/
theorem writeInstr_completes (hc : chip = s.params.chipAddr) (hr : ∀ x, r = .chanStat x → rstBit v = false)
    (h : regWrite r v s = .next u) : Completes (writeInstr r chip v) s u := by
  refine ⟨u.withPort (shiftedPort (commandByte 0#1 chip r.addr) s) (s.draws + 2), ?_, agreesOffPort_withPort _ rfl ?_⟩
  · rw [exec_writeInstr, spiWrite_own hc, spiShift_eq_withPort, regWrite_withPort hr, h, onNext_next]
  · rw [regWrite_spi hr h]
    rfl

/-- A write row is refused as its register's write is. -/
theorem writeInstr_refused {q : Refusal} (hc : chip = s.params.chipAddr) (hr : ∀ x, r = .chanStat x → rstBit v = false)
    (h : regWrite r v s = .refused q) : exec (writeInstr r chip v) s = .refused q := by
  rw [exec_writeInstr, spiWrite_own hc, spiShift_eq_withPort, regWrite_withPort hr, h, onNext_refused]

/-- A read row answers as its register's read does on the state before the transaction (R110, R114). -/
theorem readInstr_answers {b : Byte} (hc : chip = s.params.chipAddr)
    (hr : ∀ x, r = .txRxData x → (s.chan x).rxfifo ≠ []) (h : regRead r s = (b, u)) : Answers (readInstr r chip v) s b u := by
  have hs : u.spi = s.spi := by
    have := regRead_spi r s
    rwa [h] at this
  refine ⟨u.withPort { shiftedPort (commandByte 1#1 chip r.addr) s with sdoData := b } (s.draws + 2), ?_, rfl,
    agreesOffPort_withPort _ rfl ?_⟩
  · rw [exec_readInstr, spiRead_own hc, spiShift_eq_withPort, regRead_withPort hr, h]
    rfl
  · rw [hs]
    rfl

end Own

/-! ## The rows of a pair, at channel X -/

theorem pairRow_eq (row : Chan → Instr) (x : Chan) : pairRow x (row .a) (row .b) = row x := by
  cases x <;> rfl

section OwnPair

variable (reg : Chan → Reg) {x : Chan} {chip : ChipAddr} {v : Byte} {s u : State}

theorem writePair_completes (hc : chip = s.params.chipAddr) (hr : ∀ y, reg x = .chanStat y → rstBit v = false)
    (h : regWrite (reg x) v s = .next u) :
    Completes (pairRow x (writeInstr (reg .a) chip v) (writeInstr (reg .b) chip v)) s u := by
  rw [pairRow_eq fun y => writeInstr (reg y) chip v]
  exact writeInstr_completes hc hr h

theorem writePair_refused {q : Refusal} (hc : chip = s.params.chipAddr)
    (hr : ∀ y, reg x = .chanStat y → rstBit v = false) (h : regWrite (reg x) v s = .refused q) :
    exec (pairRow x (writeInstr (reg .a) chip v) (writeInstr (reg .b) chip v)) s = .refused q := by
  rw [pairRow_eq fun y => writeInstr (reg y) chip v]
  exact writeInstr_refused hc hr h

theorem readPair_answers {b : Byte} (hc : chip = s.params.chipAddr)
    (hr : ∀ y, reg x = .txRxData y → (s.chan y).rxfifo ≠ []) (h : regRead (reg x) s = (b, u)) :
    Answers (pairRow x (readInstr (reg .a) chip v) (readInstr (reg .b) chip v)) s b u := by
  rw [pairRow_eq fun y => readInstr (reg y) chip v]
  exact readInstr_answers hc hr h

end OwnPair

end Sys2Proof.Machine
end

section
/-!
The statements of 10_state.md about one register access at the block's own address: storage, Interrupt, CQErr, the level,
MsgCtrl, ChanStat, CQCtrl and CQSend, Status, RevID, and the command byte a transaction leaves.
-/

namespace Sys2Proof.Machine

open Sys2Proof

/-! ## Storage, Status, RevID -/

/-- Settles O13: each row is the write of its storage register, which the dispatch stores with `storageSet`. -/
theorem storageRegistersWrite : Obligations.StorageRegistersWrite := by
  intro s chip v hc
  have store : ∀ r, Completes (writeInstr (.store r) chip v) s (storeReg r v s) :=
    fun _ => writeInstr_completes hc nofun rfl
  exact ⟨store .ledCtrl, store .trigger, store .cqCfgA, store .cqCfgB, store .cyclTmrA, store .cyclTmrB, store .deviceDlyA,
    store .deviceDlyB, store .trigAssgnA, store .trigAssgnB, store .lCnfgA, store .lCnfgB, store .ioStCfgA, store .ioStCfgB,
    store .drvrCurrLim, store .clock⟩

/-- Settles O14: each row is the read of its storage register. -/
theorem storageRegistersRead : Obligations.StorageRegistersRead := by
  intro s chip d hc
  have load : ∀ r, Answers (readInstr (.store r) chip d) s (storageGet s.storage r) s :=
    fun _ => readInstr_answers hc nofun rfl
  exact ⟨load .ledCtrl, load .trigger, load .cqCfgA, load .cqCfgB, load .cyclTmrA, load .cyclTmrB, load .deviceDlyA,
    load .deviceDlyB, load .trigAssgnA, load .trigAssgnB, load .lCnfgA, load .lCnfgB, load .ioStCfgA, load .ioStCfgB,
    load .drvrCurrLim, load .clock⟩

/-- Settles O29: both registers are read without effect. -/
theorem statusAndRevIdReads : Obligations.StatusAndRevIdReads := by
  intro s chip d hc
  exact ⟨readInstr_answers (r := .status) hc nofun rfl, readInstr_answers (r := .revId) hc nofun rfl⟩

/-! ## Interrupt and CQErr -/

/-- Two bytes have a bit in common exactly when their conjunction is not zero. -/
theorem and_ne_zero_iff_common_bit (a b : Byte) :
    a &&& b ≠ 0x00 ↔ ∃ k, a.getLsbD k = true ∧ b.getLsbD k = true := by
  constructor
  · intro h
    by_contra hno
    refine h (BitVec.eq_of_getLsbD_eq fun k _ => ?_)
    rw [BitVec.getLsbD_and, BitVec.ofNat_eq_ofNat, BitVec.getLsbD_zero, Bool.eq_false_iff]
    exact fun hk => hno ⟨k, Bool.and_eq_true_iff.mp hk⟩
  · rintro ⟨k, ha, hb⟩ h
    have hk := congrArg (BitVec.getLsbD · k) h
    simp [ha, hb] at hk

/-- IRQ_n is low exactly when an enabled flag is latched (R19, R234). -/
theorem irqN_eq_false_iff (s : State) :
    s.irqN = false ↔ ∃ k, s.irqFlags.getLsbD k = true ∧ s.interruptEn.getLsbD k = true := by
  rw [← and_ne_zero_iff_common_bit, State.irqN, beq_eq_false_iff_ne]

/-- Settles O15: the store, the read, and the level by `irqN_eq_false_iff`. -/
theorem interruptEnableMasksOnlyTheOutput : Obligations.InterruptEnableMasksOnlyTheOutput := by
  intro s chip v hc
  exact ⟨writeInstr_completes (r := .interruptEn) hc nofun rfl, readInstr_answers (r := .interruptEn) hc nofun rfl,
    irqN_eq_false_iff s⟩

/-- Settles O16: the row reads by `readInterrupt`. -/
theorem interruptReadReturnsAndClears : Obligations.InterruptReadReturnsAndClears :=
  fun _ _ _ hc => readInstr_answers (r := .interrupt) hc nofun rfl

/-- Settles O17: the rows read by `readCqErr`, each of its own channel. -/
theorem cqErrReadReturnsAndClears : Obligations.CqErrReadReturnsAndClears := by
  intro s chip d hc
  exact ⟨readInstr_answers (r := .cqErr .a) hc nofun rfl, readInstr_answers (r := .cqErr .b) hc nofun rfl⟩

/-! ## The level, MsgCtrl and ChanStat -/

/-- A FIFO of at most 64 bytes has its length for its level (R20, R163). -/
theorem rxLevel_toNat {x : Chan} {s : State} (h : (s.chan x).rxfifo.length ≤ 64) :
    (rxLevel x s).toNat = (s.chan x).rxfifo.length := by
  rw [rxLevel, BitVec.toNat_ofNat, Nat.mod_eq_of_lt (by omega)]

/-- Settles O18: the byte read is `rxLevel`, which is below 128. -/
theorem levelReadAnswersTheFifoLength : Obligations.LevelReadAnswersTheFifoLength := by
  intro s x chip d hc hl
  have hn := rxLevel_toNat hl
  refine ⟨rxLevel x s, ?_, hn, by omega, ?_⟩
  · exact readPair_answers .rxFifoLvl hc nofun rfl
  · rw [← BitVec.testBit_toNat]
    exact Nat.testBit_lt_two_pow (by omega)

/-- Settles O24: the store by `setMsgCtrl`, and the read. -/
theorem msgCtrlStoresItsOptions : Obligations.MsgCtrlStoresItsOptions := by
  intro s x chip v hc
  exact ⟨writePair_completes .msgCtrl hc nofun rfl, readPair_answers .msgCtrl hc nofun rfl⟩

/-- The bits of ChanStat: 7 is zero, 6 the framer enable, 5 to 0 the fault inputs (R26). -/
theorem chanStatByte_fields (framerEn : Bool) (fault : BitVec 6) :
    (chanStatByte framerEn fault).getLsbD 7 = false ∧ (chanStatByte framerEn fault).getLsbD 6 = framerEn ∧
      (chanStatByte framerEn fault).extractLsb' 0 6 = fault := by
  revert framerEn fault
  decide

/-- A ChanStat write without Rst stores FramerEn (R26). -/
theorem writeChanStat_of_not_rst {v : Byte} (h : v.getLsbD 7 = false) (x : Chan) (s : State) :
    writeChanStat x v s = s.setChan x { s.chan x with framerEn := v.getLsbD 6 } := by
  rw [writeChanStat, rstBit, if_neg (ne_true_of_eq_false h), framerEnBit]

/-- Settles O25: a write without Rst is the store of `writeChanStat_of_not_rst`; the byte read is `chanStatByte`. -/
theorem chanStatStoresFramerEnable : Obligations.ChanStatStoresFramerEnable := by
  intro s x chip v hc
  refine ⟨fun h7 => ?_, chanStatByte (s.chan x).framerEn (s.env.chanFault x), ?_, chanStatByte_fields _ _⟩
  · rw [← writeChanStat_of_not_rst h7]
    exact writePair_completes .chanStat hc (fun _ _ => h7) rfl
  · exact readPair_answers .chanStat hc nofun rfl

/-! ## CQCtrl without CQSend -/

/-- A byte with the trigger bits masked off has each of them zero (R21, R36 (ii)). -/
theorem triggers_zero_of_stored {c : Byte} (h : c &&& 0x1D = 0) :
    wuPuls c = false ∧ txFifoRst c = false ∧ rxFifoRst c = false ∧ cqSendBit c = false := by
  revert c
  decide

/-- Settles O19: the read, and R36 (ii) for the trigger bits. -/
theorem cqCtrlReadAnswersTheStoredBits : Obligations.CqCtrlReadAnswersTheStoredBits := by
  intro s x chip d hc
  exact ⟨readPair_answers .cqCtrl hc nofun rfl, fun h => triggers_zero_of_stored h.ctrl_stored⟩

/-- Settles O20: without CQSend a write of CQCtrl is its other triggers. -/
theorem cqCtrlWriteWithoutSend : Obligations.CqCtrlWriteWithoutSend := by
  intro s x chip v hc h0
  exact writePair_completes .cqCtrl hc nofun (writeCqCtrl_of_not_send h0 x s)

/-! ## CQSend -/

/-- Settles O21: with SPIChks off the check is ok, so the message is sent (`sendLoaded_sent`). -/
theorem cqSendSendsTheMessage : Obligations.CqSendSendsTheMessage := by
  intro s x chip v hc h0 h3 hf hx he h6
  have hfifo := afterTriggers_txfifo_of_no_txReset (s := s) (x := x) h3
  have hk : txCheckOk ((s.afterTriggers x v).chan x).msgCtrl ((s.afterTriggers x v).chan x).txfifo = true := by
    rw [afterTriggers_msgCtrl, txCheckOk, spiChks, h6]
    rfl
  refine writePair_completes .cqCtrl hc nofun ((writeCqCtrl_sends_loaded h0 h3 hf hx he).trans ?_)
  rw [sendLoaded_sent hk (by simp), afterTriggers_msgCtrl, hfifo]
  simp only [if_true, BitVec.ofNat_eq_ofNat, BitVec.or_zero]
  cases x <;> rfl

/-- Settles O22: with SPIChks on the check is `CKS_OK` of the FIFO; the message is destroyed or sent by its verdict. -/
theorem cqSendUnderTheTransmitCheck : Obligations.CqSendUnderTheTransmitCheck := by
  intro s x chip v ok hc h0 h3 hf hx he h6 hok
  have hfifo := afterTriggers_txfifo_of_no_txReset (s := s) (x := x) h3
  have hk : txCheckOk ((s.afterTriggers x v).chan x).msgCtrl ((s.afterTriggers x v).chan x).txfifo = ok := by
    rw [afterTriggers_msgCtrl, hfifo, txCheckOk, spiChks, h6, hok]
    rfl
  have hd : txErDestroy ((s.afterTriggers x v).chan x).msgCtrl = (s.chan x).msgCtrl.getLsbD 7 := by
    rw [afterTriggers_msgCtrl, txErDestroy]
  refine writePair_completes .cqCtrl hc nofun ((writeCqCtrl_sends_loaded h0 h3 hf hx he).trans ?_)
  by_cases hdestroy : ok = false ∧ (s.chan x).msgCtrl.getLsbD 7 = true
  · rw [if_pos hdestroy, sendLoaded_destroyed (hk.trans hdestroy.1) (hd.trans hdestroy.2), afterTriggers_cqerr,
      afterTriggers_irqFlags]
  · rw [if_neg hdestroy, sendLoaded_sent hk (by rwa [hd]), afterTriggers_cqerr, afterTriggers_irqFlags,
      afterTriggers_msgCtrl, hfifo]
    rfl

/-- Settles O23: the three ways CQSend does not send, each of the state the other triggers leave. -/
theorem cqSendIgnoredEmptyOrInFlight : Obligations.CqSendIgnoredEmptyOrInFlight := by
  intro s x chip v hc h0
  have hw : ∀ {o : Outcome}, cqSend x (s.afterTriggers x v) = o → regWrite (.cqCtrl x) v s = o :=
    fun h => (writeCqCtrl_of_send h0 x s).trans h
  refine ⟨fun hf => ?_, fun hf hx he => ?_, fun hf h2 hx => ?_⟩
  · refine writePair_completes .cqCtrl hc nofun (hw (cqSend_framer_off ?_))
    rwa [afterTriggers_framerEn]
  · refine writePair_completes .cqCtrl hc nofun (hw ?_)
    rw [cqSend_of_empty (by rwa [afterTriggers_framerEn]) (afterTriggers_xfer_idle hx) (afterTriggers_txfifo_nil he),
      latchFault_eq, afterTriggers_cqerr, afterTriggers_irqFlags]
    rfl
  · refine writePair_refused .cqCtrl hc nofun (hw ((cqSend_refused_iff x _ _).mpr ⟨?_, ?_, rfl⟩))
    · rwa [afterTriggers_framerEn]
    · rwa [afterTriggers_xfer_of_no_rxReset h2]

/-! ## The command byte a transaction leaves -/

/-- The command byte of a word is its bits 15 to 8 (R91, R92). -/
theorem commandByte_fields (w : BitVec 16) : commandByte (fieldRw w) (fieldChip w) (fieldAddr w) = w.extractLsb' 8 8 := by
  have hw := congrArg (BitVec.extractLsb' 8 8) (spiWord_fields w)
  rw [← hw]
  exact BitVec.extractLsb'_append_eq_left.symm

/-- A transaction at the block's own address, but the register reset, leaves the port as it was latched (R14). -/
theorem exec_decodeSpi_latches {w : BitVec 16} {s t : State} (hc : fieldChip w = s.params.chipAddr)
    (hr : ∀ x, fieldRw w = 0#1 → Reg.ofAddr (fieldAddr w) = .chanStat x → rstBit (fieldData w) = false)
    (h : exec (decodeSpi w) s = .next t) : t.spi.cmd = w.extractLsb' 8 8 ∧ t.spi.phase = .idle := by
  rw [← commandByte_fields]
  unfold decodeSpi at h
  split at h
  · rename_i hrw
    rw [exec_readInstr, spiRead_own hc, addr_ofAddr] at h
    injection h with e
    rw [← e, hrw, regRead_spi]
    exact ⟨rfl, rfl⟩
  · rename_i hrw
    have hrw0 : fieldRw w = 0#1 := (BitVec.eq_zero_or_eq_one _).resolve_right hrw
    rw [exec_writeInstr, spiWrite_own hc, addr_ofAddr] at h
    rw [regWrite_spi (hr · hrw0) h, hrw0]
    exact ⟨rfl, rfl⟩

/-- A transaction of fewer than 16 clocks is its shift alone, under the lock (R97 (c), R211). -/
theorem deliverSpi_short {clocks : Nat} {w : BitVec 16} {s : State} (hlt : clocks < 16) (hb : s.boot = .ready)
    (hl : s.host.spiLock = false) :
    deliverSpi clocks w .ok s = .next (releaseLock (setExchange true (shortShift clocks w (acquireLock s)))) := by
  simp [deliverSpi, hb, hl, access, clockedIn, decodeClocks, hlt]

/-- Settles O58: a whole transaction by `exec_decodeSpi_latches`, a short one by `deliverSpi_short`. -/
theorem ownTransactionLatchesItsCommandByte : Obligations.OwnTransactionLatchesItsCommandByte := by
  intro s t w
  constructor
  · intro hc hno h
    refine exec_decodeSpi_latches hc (fun x hrw hreg => ?_) h
    have haddr : fieldAddr w = pairAddr 0x0C x := by
      rw [← addr_ofAddr (fieldAddr w), hreg]
      cases x <;> rfl
    have hdata : rstBit (fieldData w) = w.getLsbD 7 := by
      simp [rstBit, fieldData]
    rw [hdata, Bool.eq_false_iff]
    exact fun h7 => hno x ⟨hrw, haddr, h7⟩
  · intro clocks hlt hb hl h
    rw [runEvent, deliverSpi_short hlt hb hl] at h
    injection h with e
    rw [← e]
    refine ⟨rfl, fun h8 hc => if_pos ⟨h8, hc⟩, fun hnot => if_neg ?_⟩
    rintro ⟨h8, hc⟩
    rcases hnot with hlt8 | hother
    · omega
    · exact hother hc

end Sys2Proof.Machine
end

section
/-!
The statements of 20_memory.md about one register: the writes that are ignored (R67) and the write-then-read law (R68).
-/

namespace Sys2Proof.Machine

open Sys2Proof

/-! ## Registers by address -/

@[simp] theorem ofAddr_pair_txRxData (x : Chan) : Reg.ofAddr (pairAddr 0x00 x) = .txRxData x := by cases x <;> rfl
@[simp] theorem ofAddr_pair_rxFifoLvl (x : Chan) : Reg.ofAddr (pairAddr 0x04 x) = .rxFifoLvl x := by cases x <;> rfl
@[simp] theorem ofAddr_pair_cqCtrl (x : Chan) : Reg.ofAddr (pairAddr 0x06 x) = .cqCtrl x := by cases x <;> rfl
@[simp] theorem ofAddr_pair_cqErr (x : Chan) : Reg.ofAddr (pairAddr 0x08 x) = .cqErr x := by cases x <;> rfl
@[simp] theorem ofAddr_pair_chanStat (x : Chan) : Reg.ofAddr (pairAddr 0x0C x) = .chanStat x := by cases x <;> rfl

/-- The generic WR is the write row of the register at its address (R113). -/
theorem exec_wr (chip : ChipAddr) (a : RegAddr) (v : Byte) (s : State) :
    exec (.wr chip a v) s = exec (writeInstr (Reg.ofAddr a) chip v) s := by
  rw [exec_writeInstr, addr_ofAddr]
  rfl

/-- The generic RD is the read row of the register at its address (R114). -/
theorem exec_rd (chip : ChipAddr) (a : RegAddr) (d : Byte) (s : State) :
    exec (.rd chip a d) s = exec (readInstr (Reg.ofAddr a) chip d) s := by
  rw [exec_readInstr, addr_ofAddr]
  rfl

/-! ## Ignored writes -/

/-- Settles O12: the dispatch of each of these registers answers the state it was given. -/
theorem ignoredWritesChangeNothing : Obligations.IgnoredWritesChangeNothing := by
  intro s chip v hc
  have ignored : ∀ r, (∀ x, r ≠ .chanStat x) → regWrite r v s = .next s → Completes (writeInstr r chip v) s s :=
    fun _ hr hw => writeInstr_completes hc (fun x hx => absurd hx (hr x)) hw
  exact ⟨ignored .interrupt nofun rfl, ignored (.rxFifoLvl .a) nofun rfl, ignored (.rxFifoLvl .b) nofun rfl,
    ignored (.cqErr .a) nofun rfl, ignored (.cqErr .b) nofun rfl, ignored .status nofun rfl, ignored .revId nofun rfl⟩

/-! ## The write-then-read law -/

/-- A state that agrees with `u` off the port is `u` under its own port. -/
theorem AgreesOffPort.eq_withPort {t u : State} (h : AgreesOffPort t u) : t = u.withPort t.spi t.draws := by
  rw [h]
  rfl

/-- A read directly after a write at the block's own address answers what the register's read answers after its write. -/
theorem wr_rd_answers {a : RegAddr} {r : Reg} {chip : ChipAddr} {v d b : Byte} {s w : State} (ha : Reg.ofAddr a = r)
    (hc : chip = s.params.chipAddr) (hrst : ∀ x, r = .chanStat x → rstBit v = false)
    (hpop : ∀ x, r = .txRxData x → (w.chan x).rxfifo ≠ []) (hw : regWrite r v s = .next w)
    (hb : (regRead r w).1 = b) :
    ∃ t u, exec (.wr chip a v) s = .next t ∧ exec (.rd chip a d) t = .next u ∧ u.spi.sdoData = b := by
  obtain ⟨t, ht, hagree⟩ := writeInstr_completes hc hrst hw
  have hct : chip = t.params.chipAddr := by
    rw [hagree.eq_withPort, hc]
    exact congrArg Params.chipAddr (regWrite_kept hw).params.symm
  have hread : (regRead r t).1 = b := by
    rw [hagree.eq_withPort, regRead_withPort hpop, hb]
  have hpopt : ∀ x, r = .txRxData x → (t.chan x).rxfifo ≠ [] := by
    intro x hx
    rw [hagree.eq_withPort, withPort_chan]
    exact hpop x hx
  obtain ⟨u, hu, hdata, -⟩ := readInstr_answers (v := d) hct hpopt rfl
  refine ⟨t, u, ?_, ?_, hdata.trans hread⟩
  · rw [exec_wr, ha, ht]
  · rw [exec_rd, ha, hu]

/-- The registers of class storage: they hold whatever byte is written to them (R68). -/
def Reg.storesWholeByte : Reg → Bool
  | .interruptEn | .msgCtrl _ | .store _ => true
  | _ => false

/-- The addresses of the registers that hold the whole byte. -/
theorem storesWholeByte_ofAddr {a : RegAddr} (h : a = 0x03 ∨ a = 0x0A ∨ a = 0x0B ∨ (0x0E ≤ a ∧ a ≤ 0x1D)) :
    Reg.storesWholeByte (Reg.ofAddr a) = true := by
  revert a
  decide

/-- Such a register reads the byte written to it. -/
theorem regWrite_reads_back {r : Reg} (h : Reg.storesWholeByte r = true) (v : Byte) (s : State) :
    ∃ w, regWrite r v s = .next w ∧ (regRead r w).1 = v := by
  cases r with
  | interruptEn => exact ⟨_, rfl, rfl⟩
  | msgCtrl x => exact ⟨setMsgCtrl x v s, rfl, by simp [regRead, setMsgCtrl]⟩
  | store q => exact ⟨storeReg q v s, rfl, storageGet_set_same s.storage q v⟩
  | _ => cases h

/-- Settles O30: `wr_rd_answers`, with what each class of register reads after its write. -/
theorem writeThenReadLaw : Obligations.WriteThenReadLaw := by
  intro s chip a v d hc
  refine ⟨fun ha => ?_, fun ha hv => ?_, fun x ha h7 => ?_⟩
  · have hstore := storesWholeByte_ofAddr ha
    obtain ⟨w, hw, hread⟩ := regWrite_reads_back hstore v s
    refine wr_rd_answers rfl hc (fun x hx => ?_) (fun x hx => ?_) hw hread
    all_goals simp [hx, Reg.storesWholeByte] at hstore
  · obtain ⟨x, rfl⟩ : ∃ x, a = pairAddr 0x06 x := by
      rcases ha with rfl | rfl
      · exact ⟨.a, rfl⟩
      · exact ⟨.b, rfl⟩
    obtain ⟨-, -, -, hsend⟩ := triggers_zero_of_stored hv
    have hread : (regRead (.cqCtrl x) (s.afterTriggers x v)).1 = v &&& 0xE2 := by
      rw [regRead, afterTriggers_chan]
    exact wr_rd_answers (ofAddr_pair_cqCtrl x) hc nofun nofun (writeCqCtrl_of_not_send hsend x s) hread
  · subst ha
    have hread : (regRead (.chanStat x) (writeChanStat x v s)).1 = chanStatByte (v.getLsbD 6) (s.env.chanFault x) := by
      rw [writeChanStat_of_not_rst h7, regRead, setChan_chan_same, setChan_env]
    exact wr_rd_answers (ofAddr_pair_chanStat x) hc (fun _ _ => h7) nofun rfl hread

end Sys2Proof.Machine
end

section
/-!
The read loop of `sendIOLData` on a complete reply (R63, R209, R210): one rule for a register read by a host sequence, the
three actions of the loop by that rule, and their run by induction on the reply.
-/

namespace Sys2Proof.Machine

open Sys2Proof

/-! ## A register read by a host sequence -/

/-- The state with that host side and those events to come. -/
def State.withHost (h : HostSide) (agenda : List Event) (s : State) : State := { s with host := h, agenda := agenda }

@[simp] theorem withHost_chan (h : HostSide) (l : List Event) (s : State) (x : Chan) :
    (s.withHost h l).chan x = s.chan x := by
  cases x <;> rfl

/-- A register read does the same whatever the host does and whatever is to come. -/
theorem regRead_withHost (r : Reg) (h : HostSide) (l : List Event) (s : State) :
    regRead r (s.withHost h l) = ((regRead r s).1, (regRead r s).2.withHost h l) := by
  cases r with
  | txRxData x =>
    show rxPop x (s.withHost h l) = ((rxPop x s).1, (rxPop x s).2.withHost h l)
    unfold rxPop
    rw [withHost_chan]
    cases (s.chan x).rxfifo with
    | nil => rfl
    | cons b rest => cases x <;> rfl
  | rxFifoLvl x | cqCtrl x | cqErr x | msgCtrl x | chanStat x => cases x <;> rfl
  | interrupt | interruptEn | store | status | revId => rfl

/-- Giving the lock back after a transaction that took it free leaves the host side as it was before (R211). -/
theorem releaseLock_withHost {h : HostSide} (hl : h.spiLock = false) (l : List Event) (p : SpiPort) (n : Nat) (u : State) :
    releaseLock (setExchange true ((u.withHost { h with spiLock := true } l).withPort p n)) =
      (u.withHost h l).withPort { p with exchangeOk := true } n := by
  obtain ⟨_, _, _, _, _, _⟩ := h
  cases hl
  rfl

/-- A step of a sequence whose next action reads register `r` with status ok: the register is read, and the sequence goes
on with the byte (R202, R209). Of the port nothing is said. -/
theorem step_hostRead {slot : Slot} {task : Task} {a : RegAddr} {r : Reg} {d b : Byte} {k : Byte → State → State}
    {s u : State} {rest : List Event} (hagenda : s.agenda = .hostStep slot .ok :: rest) (hboot : s.boot = .ready)
    (hlock : s.host.spiLock = false) (htask : s.host.task slot = some { task := task, wait := 0 })
    (hrun : ∀ v, runTask slot task .ok v = transact slot 1#1 a d .ok k v) (ha : Reg.ofAddr a = r)
    (hpop : ∀ x, r = .txRxData x → (s.chan x).rxfifo ≠ []) (hread : regRead r s = (b, u)) :
    ∃ p n, step s = .next (k b ((u.withHost s.host rest).withPort p n)) := by
  obtain ⟨t, ht, hdata, hagree⟩ := readInstr_answers (r := r) (chip := s.params.chipAddr) (v := d)
    (s := s.withHost { s.host with spiLock := true } rest) (u := u.withHost { s.host with spiLock := true } rest) (b := b)
    rfl (by simpa using hpop) (by rw [regRead_withHost, hread])
  have hdeliver : deliverSpi 16 (accessWord 1#1 a d s) .ok (s.withHost s.host rest) =
      .next ((u.withHost s.host rest).withPort { t.spi with exchangeOk := true } t.draws) := by
    rw [deliverSpi_ok (s := s.withHost s.host rest) hboot hlock, accessWord, decodeSpi_read, ha]
    show onNext (exec _ (s.withHost { s.host with spiLock := true } rest)) _ = _
    rw [ht, onNext_next, hagree.eq_withPort, releaseLock_withHost hlock]
    rfl
  refine ⟨{ t.spi with exchangeOk := true }, t.draws, ?_⟩
  calc step s
      _ = hostStep slot .ok (s.withHost s.host rest) := step_of_agenda_cons hagenda (by simp)
      _ = runTask slot task .ok (s.withHost s.host rest) := by
        simp only [hostStep, State.withHost, htask, if_true]
      _ = transact slot 1#1 a d .ok k (s.withHost s.host rest) := hrun _
      _ = _ := by
        rw [transact]
        show onNext (deliverSpi 16 (accessWord 1#1 a d s) .ok (s.withHost s.host rest)) _ = _
        rw [hdeliver, onNext_next, withPort_spi, hdata]
        rfl

/-! ## The read loop -/

/-- What `sendIOLData` does next with that many bytes of a complete reply still to read: a pop, or the read of CQErr. -/
def replyTask (c : SendCtx) : Nat → Task
  | 0 => .sendErr c false
  | m + 1 => .sendPop c m

/-- A level that covers the bytes still expected starts their pops (R209). -/
theorem afterLevel_of_covers {c : SendCtx} {lvl : Byte} {m : Nat} (slot : Slot) (s : State)
    (hm : c.expected = c.got.length + m) (hl : m ≤ lvl.toNat) :
    afterLevel slot c lvl s = become slot (replyTask c m) 0 s := by
  have hmin : min lvl.toNat (c.expected - c.got.length) = m := by omega
  unfold afterLevel
  rw [hmin]
  cases m with
  | zero => exact if_pos hm.symm
  | succ m => rfl

/-- A pop takes its byte in, and the loop goes on with the bytes still expected (R209). -/
theorem afterPop_of_expected {c : SendCtx} {m : Nat} (slot : Slot) (b : Byte) (s : State)
    (hm : c.expected = c.got.length + (m + 1)) :
    afterPop slot c m b s = become slot (replyTask { c with got := c.got ++ [b] } m) 0 s := by
  cases m with
  | zero => exact if_pos (by simp [hm])
  | succ m => rfl

/-- The result when every expected byte was read (R210). -/
theorem sendResult_complete {c : SendCtx} (h : c.got.length = c.expected) (e : Byte) :
    sendResult c false e = .transfer c.got (transferResult e c.expected c.expected) := by
  rw [sendResult, if_neg Bool.false_ne_true, h]

/-- The loop in progress: from `s0`, `sendIOLData` on X is about to do `task`, `fifo` is left of rxfifo[X], and `n` actions
of it are all that is to come. -/
structure ReadingReply (x : Chan) (s0 s : State) (task : Task) (fifo : List Byte) (n : Nat) : Prop where
  boot : s.boot = .ready
  lock : s.host.spiLock = false
  task : s.host.task (.chan x) = some { task := task, wait := 0 }
  agenda : s.agenda = List.replicate n (.hostStep (.chan x) .ok)
  chan : s.chan x = { s0.chan x with rxfifo := fifo }
  returns : s.host.returns = s0.host.returns

/-- The loop has returned `r` and read CQErrX, with `fifo` left of rxfifo[X] (R210). -/
structure ReplyReturned (x : Chan) (s0 t : State) (r : HostResult) (fifo : List Byte) : Prop where
  agenda : t.agenda = []
  returns : t.host.returns = s0.host.returns ++ [(.chan x, r)]
  chan : t.chan x = { s0.chan x with rxfifo := fifo, cqerr := 0x00 }

section Loop

variable {x : Chan} {s0 s : State} {c : SendCtx} {task : Task} {fifo : List Byte} {n : Nat}

/-- The next action of the loop, when it reads register `r`. -/
theorem ReadingReply.step_read {a : RegAddr} {r : Reg} {b : Byte} {k : Byte → State → State} {u : State}
    (h : ReadingReply x s0 s task fifo (n + 1))
    (hrun : ∀ v, runTask (.chan x) task .ok v = transact (.chan x) 1#1 a 0x00 .ok k v) (ha : Reg.ofAddr a = r)
    (hpop : ∀ y, r = .txRxData y → (s.chan y).rxfifo ≠ []) (hread : regRead r s = (b, u)) :
    ∃ p m, step s = .next (k b ((u.withHost s.host (List.replicate n (.hostStep (.chan x) .ok))).withPort p m)) :=
  step_hostRead (h.agenda.trans List.replicate_succ) h.boot h.lock h.task hrun ha hpop hread

/-- The loop goes on with another task, from a state that differs in the port and in the channel. -/
theorem ReadingReply.of_become {u : State} {task' : Task} {fifo' : List Byte} (h : ReadingReply x s0 s task fifo (n + 1))
    (hk : Kept s u) (hchan : u.chan x = { s0.chan x with rxfifo := fifo' }) (p : SpiPort) (m : Nat) :
    ReadingReply x s0 (become (.chan x) task' 0
      ((u.withHost s.host (List.replicate n (.hostStep (.chan x) .ok))).withPort p m)) task' fifo' n where
  boot := hk.boot.trans h.boot
  lock := (become_lock ..).trans h.lock
  task := (become_task ..).trans (if_pos rfl)
  agenda := rfl
  chan := by rw [become_chan, withPort_chan, withHost_chan, hchan]
  returns := (setTask_returns ..).trans h.returns

/-- The level read: the whole reply is in the FIFO, so its bytes are read next. -/
theorem ReadingReply.step_level {m : Nat} (h : ReadingReply x s0 s (.sendLevel c) fifo (n + 1)) (hx : c.x = x)
    (hm : c.expected = c.got.length + m) (hlen : m ≤ fifo.length) (hmax : fifo.length ≤ 64) :
    ∃ t, step s = .next t ∧ ReadingReply x s0 t (replyTask c m) fifo n := by
  subst hx
  have hfifo : (s.chan c.x).rxfifo = fifo := by rw [h.chan]
  have hlvl : (rxLevel c.x s).toNat = fifo.length := by rw [rxLevel_toNat (by rwa [hfifo]), hfifo]
  obtain ⟨p, k, hs⟩ := h.step_read (fun _ => rfl) (ofAddr_pair_rxFifoLvl c.x) nofun rfl
  rw [afterLevel_of_covers _ _ hm (by omega)] at hs
  exact ⟨_, hs, h.of_become (.refl s) h.chan p k⟩

/-- A pop: the oldest byte is taken in (R63). -/
theorem ReadingReply.step_pop {m : Nat} {b : Byte} (h : ReadingReply x s0 s (.sendPop c m) (b :: fifo) (n + 1))
    (hx : c.x = x) (hm : c.expected = c.got.length + (m + 1)) :
    ∃ t, step s = .next t ∧ ReadingReply x s0 t (replyTask { c with got := c.got ++ [b] } m) fifo n := by
  subst hx
  have hfifo : (s.chan c.x).rxfifo = b :: fifo := by rw [h.chan]
  have hread : regRead (.txRxData c.x) s = (b, s.setChan c.x { s.chan c.x with rxfifo := fifo }) := by
    rw [regRead, rxPop, hfifo]
  have hpop : ∀ y, Reg.txRxData c.x = .txRxData y → (s.chan y).rxfifo ≠ [] := by
    rintro y ⟨⟩
    simp [hfifo]
  obtain ⟨p, k, hs⟩ := h.step_read (fun _ => rfl) (ofAddr_pair_txRxData c.x) hpop hread
  rw [afterPop_of_expected _ _ _ hm] at hs
  exact ⟨_, hs, h.of_become (setChan_kept ..) (by rw [setChan_chan_same, h.chan]) p k⟩

/-- The read of CQErrX: the loop returns its bytes with the faults that were latched (R210). -/
theorem ReadingReply.step_err (h : ReadingReply x s0 s (.sendErr c false) fifo 1) (hx : c.x = x) :
    ∃ t, step s = .next t ∧ ReplyReturned x s0 t (sendResult c false (s0.chan x).cqerr) fifo := by
  subst hx
  obtain ⟨p, k, hs⟩ := h.step_read (k := fun e => finish (.chan c.x) (sendResult c false e)) (fun _ => rfl)
    (ofAddr_pair_cqErr c.x) nofun rfl
  refine ⟨_, hs, rfl, ?_, ?_⟩
  · simp [finish, State.withPort, State.withHost, h.returns, h.chan]
  · rw [finish_chan, withPort_chan, withHost_chan, setChan_chan_same, h.chan]

/-- The rest of a complete reply is read in order, then CQErrX, one action each. -/
theorem ReadingReply.run_reply {bytes rest : List Byte}
    (h : ReadingReply x s0 s (replyTask c bytes.length) (bytes ++ rest) (bytes.length + 1)) (hx : c.x = x)
    (hm : c.expected = c.got.length + bytes.length) :
    ∃ t, Host.Core.run Sys2Proof.core (bytes.length + 1) s = .next t ∧
      ReplyReturned x s0 t (.transfer (c.got ++ bytes) (transferResult (s0.chan x).cqerr c.expected c.expected)) rest := by
  induction bytes generalizing c s with
  | nil =>
    obtain ⟨t, hs, ht⟩ := h.step_err hx
    refine ⟨t, run_succ 0 hs, ?_⟩
    rw [sendResult_complete hm.symm] at ht
    rwa [List.append_nil]
  | cons b bytes ih =>
    obtain ⟨t, hs, ht⟩ := h.step_pop hx hm
    obtain ⟨u, hu, hret⟩ := ih ht hx (by simp only [hm, List.length_append, List.length_cons, List.length_nil]; omega)
    refine ⟨u, (run_succ _ hs).trans hu, ?_⟩
    rwa [List.append_assoc] at hret

end Loop

/-- Settles O57: the level read, then the reply by `ReadingReply.run_reply`. -/
theorem readyReplyIsReadInOrder : Obligations.ReadyReplyIsReadInOrder := by
  intro s x bytes rest k hboot hlock hfifo hmax htask hagenda
  have hstart : ReadingReply x s s (.sendLevel { x := x, expected := bytes.length, got := [], elapsed := k })
      (bytes ++ rest) (bytes.length + 2) := ⟨hboot, hlock, htask, hagenda, by rw [← hfifo], rfl⟩
  obtain ⟨u, hs, hu⟩ := hstart.step_level (m := bytes.length) rfl (Nat.zero_add _).symm (by simp) hmax
  obtain ⟨t, hrun, ht⟩ := hu.run_reply rfl (Nat.zero_add _).symm
  refine ⟨t, (run_succ _ hs).trans hrun, ht.agenda, ht.returns, ?_, ?_, ?_⟩ <;> rw [ht.chan]

end Sys2Proof.Machine
end

section
/-!
The statements of 30_encoding.md: decoder and encoder are inverse on the instructions of the named rows, a generic row is
read as and means the named row of its operand, and the frames that carry no instruction of their own.
-/

namespace Sys2Proof.Machine

open Sys2Proof

/-! ## Mode requests on the command port -/

/-- The channel of a channel's bit is that channel. -/
@[simp] theorem chanOfBit_bitOfChan (ch : Chan) : chanOfBit (bitOfChan ch) = ch := by cases ch <;> rfl

/-- A mode-request word is made of its two fields (R96). -/
theorem cmdWord_fields (w : BitVec 3) : cmdWord (chanOfBit (w.extractLsb' 2 1)) (w.extractLsb' 0 2) = w := by
  revert w
  decide

/-- The decoder reads the two fields of a mode-request word (R96). -/
theorem decodeCmd3_cmdWord (ch : Chan) (m : BitVec 2) : decodeCmd3 (cmdWord ch m) = modeInstr m ch := by
  have hchan : (cmdWord ch m).extractLsb' 2 1 = bitOfChan ch := BitVec.extractLsb'_append_eq_left
  have hmode : (cmdWord ch m).extractLsb' 0 2 = m := BitVec.extractLsb'_append_eq_right
  rw [decodeCmd3, hchan, hmode, chanOfBit_bitOfChan]

/-- A mode code is one of the three modes' or the reserved one (R96). -/
theorem modeCode_or_reserved (m : BitVec 2) : (∃ mode, m = modeCode mode) ∨ m = 0b11#2 := by
  have hall : ∀ m : BitVec 2, m = modeCode .inactive ∨ m = modeCode .wakeup ∨ m = modeCode .operate ∨ m = 0b11#2 := by
    decide
  rcases hall m with h | h | h | h
  exacts [.inl ⟨_, h⟩, .inl ⟨_, h⟩, .inl ⟨_, h⟩, .inr h]

@[simp] theorem modeInstr_modeCode (mode : Mode) (ch : Chan) : modeInstr (modeCode mode) ch = modeRow mode ch := by
  cases mode <;> rfl

/-- The encoding of a mode row is the word of its channel and its mode code. -/
theorem encode_modeInstr (m : BitVec 2) (ch : Chan) : encode (modeInstr m ch) = .cmd3 (cmdWord ch m) := by
  rcases modeCode_or_reserved m with ⟨mode, rfl⟩ | rfl
  · cases mode <;> rfl
  · rfl

/-- The generic SETMODE is the mode row of its code, the reserved row at 0b11 (R132, R97 (f)). -/
theorem exec_setmode (ch : Chan) (m : BitVec 2) (s : State) : exec (.setmode ch m) s = exec (modeInstr m ch) s := by
  rcases modeCode_or_reserved m with ⟨mode, rfl⟩ | rfl
  · cases mode <;> rfl
  · rfl

/-- The row of a mode is the mode request for that mode (R132). -/
theorem exec_modeRow (mode : Mode) (ch : Chan) (s : State) : exec (modeRow mode ch) s = .next (modeRequest ch mode s) := by
  cases mode <;> rfl

/-! ## The round trip -/

/-- The decoder reads the four fields of a transaction word, whatever its direction (R91, R95). -/
theorem decodeSpi_spiWord (rw : BitVec 1) (chip : ChipAddr) (addr : RegAddr) (data : Byte) :
    decodeSpi (spiWord rw chip addr data) =
      if rw = 1#1 then readInstr (Reg.ofAddr addr) chip data else writeInstr (Reg.ofAddr addr) chip data := by
  simp [decodeSpi]

/-- The bits of an instruction decode to it under the row that names its register or its mode: by the lemma of its format,
which at the row's own direction, address or mode code evaluates to that row. -/
theorem decode_encode (i : Instr) : decode (encode i) = canonical i := by
  cases i
  case setmode ch _ | setmodeInactive ch | setmodeWakeup ch | setmodeOperate ch | setmodeReserved ch =>
    exact decodeCmd3_cmdWord ch _
  all_goals exact decodeSpi_spiWord _ _ _ _

/-- A well-formed instruction stands under its named row already. -/
theorem canonical_of_wellFormed {i : Instr} (h : WellFormed i = true) : canonical i = i := by
  cases i
  case wr | rd | setmode => cases h
  all_goals rfl

/-- Settles O1: the decoder answers the named row, and a well-formed instruction stands under it. -/
theorem decodeEncodeRoundTrip : Obligations.DecodeEncodeRoundTrip :=
  fun i h => (decode_encode i).trans (canonical_of_wellFormed h)

/-! ## Every frame -/

@[simp] theorem writeInstr_wellFormed (r : Reg) (chip : ChipAddr) (data : Byte) :
    WellFormed (writeInstr r chip data) = true := by
  unfold writeInstr
  split <;> rfl

@[simp] theorem readInstr_wellFormed (r : Reg) (chip : ChipAddr) (sdi : Byte) :
    WellFormed (readInstr r chip sdi) = true := by
  unfold readInstr
  split <;> rfl

@[simp] theorem modeInstr_wellFormed (m : BitVec 2) (ch : Chan) : WellFormed (modeInstr m ch) = true := by
  unfold modeInstr
  split <;> rfl

/-- Settles O2: a transaction is the word of its four fields (`spiWord_fields`), a mode request of its two. -/
theorem everyFrameIsItsEncoding : Obligations.EveryFrameIsItsEncoding := by
  intro f
  cases f with
  | spi16 w =>
    have hw := spiWord_fields w
    rcases BitVec.eq_zero_or_eq_one (fieldRw w) with hrw | hrw
    · rw [hrw] at hw
      rw [← hw, decode, decodeSpi_write, encode_writeInstr, addr_ofAddr]
      exact ⟨writeInstr_wellFormed .., rfl⟩
    · rw [hrw] at hw
      rw [← hw, decode, decodeSpi_read, encode_readInstr, addr_ofAddr]
      exact ⟨readInstr_wellFormed .., rfl⟩
  | cmd3 w =>
    rw [← cmdWord_fields w, decode, decodeCmd3_cmdWord, encode_modeInstr]
    exact ⟨modeInstr_wellFormed .., rfl⟩

/-! ## The generic rows -/

/-- An instruction means what its named row means: only the three generic rows have another one (R111, R112, R132). -/
theorem exec_canonical (i : Instr) (s : State) : exec i s = exec (canonical i) s := by
  cases i
  case wr chip addr data => exact exec_wr chip addr data s
  case rd chip addr sdi => exact exec_rd chip addr sdi s
  case setmode ch m => exact exec_setmode ch m s
  all_goals rfl

/-- Settles O3: both sides of the dispatch are read and run as the named row. -/
theorem genericRowsMeanTheirNamedRow : Obligations.GenericRowsMeanTheirNamedRow :=
  fun i s => ⟨decode_encode i, exec_canonical i s⟩

/-! ## Sample words -/

/-- Settles O4: each word is the encoding of its instruction, so the round trip reads it. -/
theorem sampleWordsDecode : Obligations.SampleWordsDecode :=
  ⟨decodeEncodeRoundTrip (.wrInterruptEn 0 0x40) rfl, decodeEncodeRoundTrip (.wrCQCtrlB 2 0x10) rfl,
    decodeEncodeRoundTrip (.rdRxFIFOLvlB 0 0x00) rfl, decodeEncodeRoundTrip (.rdRevID 0 0x00) rfl,
    decodeEncodeRoundTrip (.setmodeWakeup .a) rfl, decodeEncodeRoundTrip (.setmodeOperate .b) rfl,
    decodeEncodeRoundTrip (.setmodeReserved .a) rfl⟩

/-! ## Transactions of another length -/

/-- A transaction of fewer than 16 clocks only shifts the port and reports its status, performed or not (R97 (c), R115). -/
theorem access_short {clocks : Nat} (h : clocks < 16) (sdi : BitVec 16) (st : SpiStatus) (s : State) :
    ∃ ok cmd, access clocks sdi st s = .next (setExchange ok (spiShift cmd s)) := by
  have hclocked : clockedIn clocks sdi s = .next (shortShift clocks sdi s) := by simp [clockedIn, decodeClocks, h]
  unfold access
  split
  · exact ⟨true, _, by rw [hclocked]; rfl⟩
  · exact ⟨false, _, by rw [hclocked]; rfl⟩
  · exact ⟨false, _, rfl⟩

/-- A transaction of more than 16 clocks is refused (R97 (c)). -/
theorem clockedIn_long {clocks : Nat} (h : 16 < clocks) (sdi : BitVec 16) (s : State) :
    clockedIn clocks sdi s = .refused .longTransaction := by
  simp [clockedIn, decodeClocks, h, show ¬clocks < 16 by omega]

/-- A delivered transaction is its access under the lock, once the boot wait is over and the lock free (R211, R264). -/
theorem deliverSpi_ready {s : State} (hb : s.boot = .ready) (hl : s.host.spiLock = false) (clocks : Nat) (sdi : BitVec 16)
    (st : SpiStatus) :
    deliverSpi clocks sdi st s = onNext (access clocks sdi st (acquireLock s)) fun t => .next (releaseLock t) := by
  simp [deliverSpi, hb, hl]

/-- Settles O8: a short transaction is its shift under the lock, which is given back (`releaseLock_acquireLock`); a long one
is refused wherever its access is performed. -/
theorem transactionLengthsOtherThanSixteen : Obligations.TransactionLengthsOtherThanSixteen := by
  intro s clocks sdi hb hl
  simp only [runEvent, deliverSpi_ready hb hl]
  refine ⟨fun hshort st => ?_, fun hlong => ?_⟩
  · obtain ⟨ok, cmd, haccess⟩ := access_short hshort sdi st (acquireLock s)
    have hlock : releaseLock (setExchange ok (spiShift cmd (acquireLock s))) = setExchange ok (spiShift cmd s) :=
      releaseLock_acquireLock (s := spiShift cmd s) hl ok
    exact ⟨_, by rw [haccess, onNext_next, hlock], rfl⟩
  · simp only [access, clockedIn_long hlong, onNext_refused, and_self]

/-! ## Mode requests by code -/

/-- Settles O36: the three codes by `exec_modeRow`, the reserved one by the generic row's own meaning. -/
theorem modeRequestByCode : Obligations.ModeRequestByCode := by
  intro s x
  refine ⟨fun m => ⟨modeRequest x m s, ?_, exec_modeRow m x s, ?_⟩, rfl, rfl⟩
  · rw [exec_setmode, modeInstr_modeCode, exec_modeRow]
  · rw [modeRequest, setChan_chan_same]

end Sys2Proof.Machine
end

section
/-!
The statements of 40_spi_transactions.md: a failed transaction (R115), one with another chip's address (R116), and which
transactions at the block's own address complete (R111, R112, R166).
-/

namespace Sys2Proof.Machine

open Sys2Proof

/-! ## Failed transactions -/

/-- A transaction that keeps the latched command byte changes nothing but SDO and the count of free values (R94). -/
theorem spiShift_same_cmd {s : State} (h : s.spi.phase = .idle) :
    spiShift s.spi.cmd s = { s with
      spi := { s.spi with sdoCmd := Config.freeByte s.draws, sdoData := Config.freeByte (s.draws + 1) },
      draws := s.draws + 2 } := by
  rw [spiShift, ← h]

@[simp] theorem setExchange_setExchange (ok ok' : Bool) (s : State) :
    setExchange ok (setExchange ok' s) = setExchange ok s := rfl

theorem setExchange_releaseLock (ok : Bool) (s : State) : setExchange ok (releaseLock s) = releaseLock (setExchange ok s) := rfl

/-- A failed transaction that was performed is the successful one but for the status it reports (R110, R115). -/
theorem access_fail_performed (clocks : Nat) (sdi : BitVec 16) (s : State) :
    access clocks sdi (.fail true) s = onNext (access clocks sdi .ok s) fun t => .next (setExchange false t) := by
  simp only [access, onNext_assoc, onNext_next, setExchange_setExchange]

/-- Settles O10: not performed, the transaction is a shift that keeps the command byte; performed, its status is set over
that of the successful one (`access_fail_performed`), before or after the lock is given back. -/
theorem failedTransactionIsWholeOrNothing : Obligations.FailedTransactionIsWholeOrNothing := by
  intro s sdi hb hl
  simp only [runEvent, deliverSpi_ready hb hl]
  constructor
  · intro hphase
    have hlock : releaseLock (setExchange false (spiShift s.spi.cmd (acquireLock s))) =
        setExchange false (spiShift s.spi.cmd s) := releaseLock_acquireLock (s := spiShift s.spi.cmd s) hl false
    exact ⟨_, congrArg Host.Outcome.next hlock, by rw [spiShift_same_cmd hphase]; rfl⟩
  · simp only [access_fail_performed, onNext_assoc, onNext_next, setExchange_releaseLock]

/-! ## Another chip's address -/

/-- A transaction word with another chip's address only shifts the port, whatever its other fields (R97 (b), R116). -/
theorem exec_decodeSpi_other {w : BitVec 16} {s : State} (hc : fieldChip w ≠ s.params.chipAddr) :
    exec (decodeSpi w) s = .next (spiShift s.spi.cmd s) := by
  unfold decodeSpi
  split
  · rw [exec_readInstr, spiRead_other hc]
  · rw [exec_writeInstr, spiWrite_other hc]

/-- An instruction with a chip-address field is a transaction, whose word carries that field (R91). -/
theorem encode_of_chipField {i : Instr} {chip : ChipAddr} (h : chipField? i = some chip) :
    ∃ rw addr data, encode i = .spi16 (spiWord rw chip addr data) := by
  cases i
  case setmode | setmodeInactive | setmodeWakeup | setmodeOperate | setmodeReserved => cases h
  all_goals
    obtain rfl := Option.some.inj h
    exact ⟨_, _, _, rfl⟩

/-- An instruction means what its encoding decodes to. -/
theorem exec_decode_encode (i : Instr) (s : State) : exec (decode (encode i)) s = exec i s := by
  rw [decode_encode, ← exec_canonical]

/-- Settles O11: the instruction is the transaction of its word, which another chip's address makes a shift alone. -/
theorem misaddressedTransactionChangesNothing : Obligations.MisaddressedTransactionChangesNothing := by
  intro i chip s hphase hchip hne
  obtain ⟨rw, addr, data, hword⟩ := encode_of_chipField hchip
  have hother : fieldChip (spiWord rw chip addr data) ≠ s.params.chipAddr := by rwa [fieldChip_spiWord]
  have hexec : exec i s = .next (spiShift s.spi.cmd s) := by
    rw [← exec_decode_encode, hword, decode, exec_decodeSpi_other hother]
  exact ⟨_, hexec, by rw [spiShift_same_cmd hphase]⟩

/-! ## The block's own address -/

/-- CQSend completes unless a reply is awaited with the framer enabled (R166). -/
theorem cqSend_completes {x : Chan} {s : State} (h : (s.chan x).framerEn = true → (s.chan x).xfer ≠ .xAwait) :
    ∃ t, cqSend x s = .next t := by
  cases hf : (s.chan x).framerEn with
  | false => exact ⟨_, cqSend_framer_off hf⟩
  | true =>
    cases hx : (s.chan x).xfer with
    | xAwait => exact absurd hx (h hf)
    | xIdle =>
      by_cases he : (s.chan x).txfifo = []
      · exact ⟨_, cqSend_of_empty hf hx he⟩
      · exact ⟨_, cqSend_of_loaded hf hx he⟩

/-- A CQCtrl write completes unless it sends into a transfer that its own RxFifoRst does not give up (R22, R165, R166). -/
theorem writeCqCtrl_completes {x : Chan} {v : Byte} {s : State}
    (h : v.getLsbD 0 = true → v.getLsbD 2 = false → (s.chan x).framerEn = true → (s.chan x).xfer ≠ .xAwait) :
    ∃ t, writeCqCtrl x v s = .next t := by
  cases h0 : v.getLsbD 0 with
  | false => exact ⟨_, writeCqCtrl_of_not_send h0 x s⟩
  | true =>
    rw [writeCqCtrl_of_send h0]
    refine cqSend_completes fun hf => ?_
    rw [afterTriggers_framerEn] at hf
    cases h2 : v.getLsbD 2 with
    | true => simp [afterTriggers_xfer_idle (s := s) (x := x) (.inl h2)]
    | false => simpa only [afterTriggers_xfer_of_no_rxReset h2] using h h0 h2 hf

/-- Every register write but that one completes (R111). -/
theorem regWrite_completes {r : Reg} {v : Byte} {s : State}
    (h : ∀ x, r = .cqCtrl x → v.getLsbD 0 = true → v.getLsbD 2 = false → (s.chan x).framerEn = true →
      (s.chan x).xfer ≠ .xAwait) : ∃ t, regWrite r v s = .next t := by
  cases r with
  | cqCtrl x => exact writeCqCtrl_completes (h x rfl)
  | _ => exact ⟨_, rfl⟩

/-- The address of CQCtrlX (R10, R61). -/
theorem eq_pair_of_ofAddr_cqCtrl {a : RegAddr} {x : Chan} (h : Reg.ofAddr a = .cqCtrl x) : a = pairAddr 0x06 x := by
  rw [← addr_ofAddr a, h]
  cases x <;> rfl

/-- The generic RD at the block's own address always completes (R112). -/
theorem exec_rd_completes {chip : ChipAddr} {s : State} (hc : chip = s.params.chipAddr) (a : RegAddr) (d : Byte) :
    ∃ t, exec (.rd chip a d) s = .next t :=
  ⟨_, by rw [exec_rd, exec_readInstr, spiRead_own hc]⟩

/-- The generic WR at the block's own address completes unless it is a second transfer in flight (R111, R166). -/
theorem exec_wr_completes {chip : ChipAddr} {a : RegAddr} {v : Byte} {s : State} (hc : chip = s.params.chipAddr)
    (h : ∀ x, a = pairAddr 0x06 x → v.getLsbD 0 = true → v.getLsbD 2 = false → (s.chan x).framerEn = true →
      (s.chan x).xfer ≠ .xAwait) : ∃ t, exec (.wr chip a v) s = .next t := by
  rw [exec_wr, exec_writeInstr, spiWrite_own hc]
  refine regWrite_completes fun x hx => ?_
  rw [spiShift_chan]
  exact h x (eq_pair_of_ofAddr_cqCtrl hx)

/-- A CQCtrl write that sends into a transfer in flight is refused (R166). -/
theorem exec_wr_second_transfer {chip : ChipAddr} {x : Chan} {v : Byte} {s : State} (hc : chip = s.params.chipAddr)
    (h0 : v.getLsbD 0 = true) (h2 : v.getLsbD 2 = false) (hf : (s.chan x).framerEn = true)
    (hx : (s.chan x).xfer = .xAwait) : exec (.wr chip (pairAddr 0x06 x) v) s = .refused .secondTransfer := by
  rw [exec_wr, ofAddr_pair_cqCtrl]
  refine writeInstr_refused hc nofun ((writeCqCtrl_of_send h0 x s).trans ((cqSend_refused_iff x _ _).mpr ⟨?_, ?_, rfl⟩))
  · rwa [afterTriggers_framerEn]
  · rwa [afterTriggers_xfer_of_no_rxReset h2]

/-- Every instruction that completes keeps the parameters, the environment inputs, the host side and the agenda. -/
theorem exec_kept {i : Instr} {s t : State} (h : exec i s = .next t) : Kept s t :=
  exec_decode_kept (encode i) ((exec_decode_encode i s).trans h)

/-- Settles O31: completion by `exec_rd_completes` and `exec_wr_completes`, the frame of either by `exec_kept`. -/
theorem genericTransactionsComplete : Obligations.GenericTransactionsComplete := by
  intro s chip a v hc
  have framed : ∀ {i : Instr}, (∃ t, exec i s = .next t) → ∃ t, exec i s = .next t ∧ t.params = s.params ∧
      t.env = s.env ∧ t.host = s.host ∧ t.agenda = s.agenda := by
    rintro i ⟨t, ht⟩
    have hk := exec_kept ht
    exact ⟨t, ht, hk.params, hk.env, hk.host, hk.agenda⟩
  refine ⟨framed (exec_rd_completes hc a v), fun h => framed (exec_wr_completes hc h), ?_⟩
  rintro x rfl h0 h2 hf hx
  exact exec_wr_second_transfer hc h0 h2 hf hx

end Sys2Proof.Machine
end

section
/-!
The mode requests and the single steps of 41_wakeup_sequencer.md: SETMODE in each state of the sequencer (R132 to R137),
`PULSE` (R138) and its urgency (R148), `Tick` on one channel and on both (R139 to R142, R236), and the latching events.
-/

namespace Sys2Proof.Machine

open Sys2Proof

/-! ## The mode request, by the state of the sequencer -/

section ModeRequest

variable {c : Channel}

theorem modeRequest_of_idle (h : c.wuState = .idle) (m : Mode) : c.modeRequest m = c.setModeIdle m := by
  rw [Channel.modeRequest, h]

theorem modeRequest_of_established (h : c.wuState = .established) (m : Mode) :
    c.modeRequest m = c.setModeEstablished m := by
  rw [Channel.modeRequest, h]

theorem modeRequest_of_running (h : c.wuState = .pulsing ∨ c.wuState = .awaitingResponse) (m : Mode) :
    c.modeRequest m = c.setModeQueued m := by
  rcases h with h | h <;> rw [Channel.modeRequest, h]

theorem modeRequest_of_failed (h : c.wuState = .failed) (m : Mode) : c.modeRequest m = c.setModeFailed m := by
  rw [Channel.modeRequest, h]

/-- WAKEUP and OPERATE in Idle start the sequence (R133). -/
theorem setModeIdle_starts {m : Mode} (hm : m ≠ .inactive) (c : Channel) :
    c.setModeIdle m = { c with mode := m, wuPulses := 0, wuTimer := 0, framerEn := true, wuState := .pulsing } := if_neg hm

/-- WAKEUP and OPERATE in Established only store the mode (R134). -/
theorem setModeEstablished_stores {m : Mode} (hm : m ≠ .inactive) (c : Channel) :
    c.setModeEstablished m = { c with mode := m } := if_neg hm

/-- A request in Failed passes through Idle (R136). -/
theorem setModeFailed_eq (m : Mode) (c : Channel) :
    c.setModeFailed m = if m = .inactive then c.goIdle
      else { c with mode := m, wuPulses := 0, wuTimer := 0, framerEn := true, wuState := .pulsing } := by
  cases m <;> rfl

/-- With no request queued there is nothing to replay (R142). -/
theorem replay_of_none (h : c.wuRestart = false) : c.replay = c := if_neg (ne_true_of_eq_false h)

/-- A queued request is taken out of the queue and applied in the state just reached (R142). -/
theorem replay_of_queued (h : c.wuRestart = true) :
    c.replay = Channel.modeRequest c.wuReqMode { c with wuRestart := false } := if_pos h

/-- The replay after detection (R134, R142). -/
theorem replay_of_established (h : c.wuState = .established) (hr : c.wuRestart = true) :
    c.replay = if c.wuReqMode = .inactive then c.goIdle else { c with wuRestart := false, mode := c.wuReqMode } := by
  exact (replay_of_queued hr).trans (modeRequest_of_established (c := { c with wuRestart := false }) h _)

/-- The replay after failure (R136, R142). -/
theorem replay_of_failed (h : c.wuState = .failed) (hr : c.wuRestart = true) :
    c.replay = if c.wuReqMode = .inactive then c.goIdle
      else { c with wuRestart := false, mode := c.wuReqMode, wuPulses := 0, wuTimer := 0, framerEn := true,
                    wuState := .pulsing } := by
  rw [replay_of_queued hr, modeRequest_of_failed (c := { c with wuRestart := false }) h, setModeFailed_eq]
  rfl

end ModeRequest

/-- A row of a mode request changes the record of its channel as the request does, and nothing else (R132). -/
theorem exec_modeRow_eq {s : State} {x : Chan} {m : Mode} {c : Channel} (h : (s.chan x).modeRequest m = c) :
    exec (modeRow m x) s = .next (s.setChan x c) := by
  rw [exec_modeRow, modeRequest, h]

/-- Settles O32: the dispatch leads to `setModeIdle`; that the mode is INACTIVE already is the invariant's `idle_mode`. -/
theorem modeRequestInIdle : Obligations.ModeRequestInIdle := by
  intro s x hs
  have hstore : exec (.setmodeInactive x) s = .next (s.setChan x { s.chan x with mode := .inactive }) :=
    exec_modeRow_eq (m := .inactive) (modeRequest_of_idle hs _)
  refine ⟨hstore, fun hm => ?_, fun hi => (hi.block.chan x).idle_mode hs, fun m hm => ?_⟩
  · rw [hstore, ← hm, setChan_self]
  · exact exec_modeRow_eq ((modeRequest_of_idle hs m).trans (setModeIdle_starts hm _))

/-- Settles O33: the dispatch leads to `setModeEstablished`, which for INACTIVE is GoIdle. -/
theorem modeRequestInEstablished : Obligations.ModeRequestInEstablished := by
  intro s x hs
  have hstore : ∀ m, m ≠ .inactive → exec (modeRow m x) s = .next (s.setChan x { s.chan x with mode := m }) :=
    fun m hm => exec_modeRow_eq ((modeRequest_of_established hs m).trans (setModeEstablished_stores hm _))
  refine ⟨hstore, fun hm => ?_, ?_⟩
  · rw [hstore _ hm, setChan_self]
  · exact exec_modeRow_eq (m := .inactive) (modeRequest_of_established hs _)

/-- Settles O34: in both states of a running sequence the request is put in the queue. -/
theorem modeRequestWhileRunningIsQueued : Obligations.ModeRequestWhileRunningIsQueued :=
  fun _ _ m hs => exec_modeRow_eq (modeRequest_of_running hs m)

/-- Settles O35: the dispatch leads to `setModeFailed`, by `setModeFailed_eq` GoIdle or a fresh sequence. -/
theorem modeRequestInFailed : Obligations.ModeRequestInFailed := by
  intro s x hs
  refine ⟨fun m hm => exec_modeRow_eq ?_, exec_modeRow_eq (m := .inactive) (modeRequest_of_failed hs _)⟩
  rw [modeRequest_of_failed hs, setModeFailed_eq, if_neg hm]

/-! ## The pulse -/

theorem pulseStep_of_pulsing {x : Chan} {s : State} (h : (s.chan x).wuState = .pulsing) :
    pulseStep x s = .next ((wakePulse x s).setChan x (s.chan x).pulse) := if_pos h

theorem pulseStep_of_not_pulsing {x : Chan} {s : State} (h : (s.chan x).wuState ≠ .pulsing) :
    pulseStep x s = .fault (.pulseNotEnabled x) := if_neg h

/-- The response windows: 10 ms after pulses 1 and 2, 20 ms after pulses 3 to 5 (R4). -/
theorem wuWindow_succ {k : Nat} (h : k < 5) : Config.wuWindow (k + 1) = if k < 2 then 10 else 20 := by
  interval_cases k <;> rfl

/-- Settles O37: the pulse opens the window `wuWindow_succ` gives. -/
theorem pulseStepsTheSequence : Obligations.PulseStepsTheSequence := by
  intro s x
  refine ⟨fun hs hk => ?_, fun hs t => ?_⟩
  · rw [← wuWindow_succ hk]
    refine (pulseStep_of_pulsing hs).trans ?_
    cases x <;> rfl
  · rw [runEvent, pulseStep_of_not_pulsing hs]
    nofun

/-! ## The urgency of the pulse -/

/-- The only channel in Pulsing is the one whose `PULSE` is urgent (R148). -/
theorem urgentPulse_of_pulsing {x : Chan} {s : State} (h : (s.chan x).wuState = .pulsing)
    (ho : (s.chan x.other).wuState ≠ .pulsing) : urgentPulse s = some x := by
  cases x with
  | a => exact if_pos h
  | b => exact (if_neg ho).trans (if_pos h)

theorem urgentPulse_of_none {s : State} (h : ∀ x, (s.chan x).wuState ≠ .pulsing) : urgentPulse s = none :=
  (if_neg (h .a)).trans (if_neg (h .b))

/-- With a `Tick` next, a step is the urgent pulse or, with none, the `Tick` (R148). -/
theorem step_of_tick_next {s : State} {rest : List Event} (ha : s.agenda = .tick :: rest) :
    step s = pulseFirst s (runEvent .tick { s with agenda := rest }) := by
  unfold step stepAgenda
  rw [ha]

theorem step_pulse {s : State} {x : Chan} {rest : List Event} (ha : s.agenda = .tick :: rest)
    (h : (s.chan x).wuState = .pulsing) (ho : (s.chan x.other).wuState ≠ .pulsing) : step s = pulseStep x s := by
  rw [step_of_tick_next ha, pulseFirst, urgentPulse_of_pulsing h ho]

theorem step_tick {s : State} {rest : List Event} (ha : s.agenda = .tick :: rest)
    (h : ∀ x, (s.chan x).wuState ≠ .pulsing) : step s = .next (tickAll { s with agenda := rest }) := by
  rw [step_of_tick_next ha, pulseFirst, urgentPulse_of_none h, runEvent]

/-- Settles O7: the step is the urgent pulse, which leaves the agenda (`pulseStep_kept`), or with none the `Tick`. -/
theorem pulseComesBeforeTheTick : Obligations.PulseComesBeforeTheTick := by
  intro s rest ha
  refine ⟨fun x hp ho => ?_, fun h => step_tick ha h⟩
  have ht := pulseStep_of_pulsing hp
  exact ⟨_, (step_pulse ha hp ho).trans ht, ht, (pulseStep_kept ht).agenda⟩

/-! ## One millisecond of one channel -/

/-- What a millisecond without the WURQ flag makes of a channel's record: an awaiting channel's window is counted down, and
its end brings the next pulse or, after five, Failed with the replay of a queued request (R139, R141, R142). -/
def Channel.countDown (c : Channel) : Channel :=
  if c.wuState = .awaitingResponse then
    if 2 ≤ c.wuTimer then { c with wuTimer := c.wuTimer - 1 }
    else if c.wuPulses < 5 then { c with wuTimer := 0, wuState := .pulsing }
    else Channel.replay { c with wuTimer := 0, wuState := .failed }
  else c

section CountDown

variable {c : Channel}

theorem countDown_of_not_awaiting (h : c.wuState ≠ .awaitingResponse) : c.countDown = c := if_neg h

theorem countDown_counts (h : c.wuState = .awaitingResponse) (ht : 2 ≤ c.wuTimer) :
    c.countDown = { c with wuTimer := c.wuTimer - 1 } := by
  rw [Channel.countDown, if_pos h, if_pos ht]

theorem countDown_retries (h : c.wuState = .awaitingResponse) (ht : c.wuTimer = 1) (hp : c.wuPulses < 5) :
    c.countDown = { c with wuTimer := 0, wuState := .pulsing } := by
  rw [Channel.countDown, if_pos h, if_neg (by omega), if_pos hp]

theorem countDown_fails (h : c.wuState = .awaitingResponse) (ht : c.wuTimer = 1) (hp : 5 ≤ c.wuPulses) :
    c.countDown = Channel.replay { c with wuTimer := 0, wuState := .failed } := by
  rw [Channel.countDown, if_pos h, if_neg (by omega), if_neg (by omega)]

theorem countDown_fails_unqueued (h : c.wuState = .awaitingResponse) (ht : c.wuTimer = 1) (hp : 5 ≤ c.wuPulses)
    (hr : c.wuRestart = false) : c.countDown = { c with wuTimer := 0, wuState := .failed } :=
  (countDown_fails h ht hp).trans (replay_of_none hr)

end CountDown

theorem timeoutsDue_of_not_due {s : State} {x : Chan}
    (h : ¬((s.chan x).wuState = .awaitingResponse ∧ (s.chan x).wuTimer = 1 ∧ 5 ≤ (s.chan x).wuPulses)) :
    s.timeoutsDue x = [] := if_neg h

theorem timeoutsDue_of_due {s : State} {x : Chan} (h : (s.chan x).wuState = .awaitingResponse)
    (ht : (s.chan x).wuTimer = 1) (hp : 5 ≤ (s.chan x).wuPulses) : s.timeoutsDue x = [.wakeUpTimeout x] := if_pos ⟨h, ht, hp⟩

theorem tickChan_of_not_awaiting {x : Chan} {s : State} (h : (s.chan x).wuState ≠ .awaitingResponse) :
    tickChan x s = s := if_neg h

/-- Without the flag a channel's record is counted down and the timeout due is reported (R139, R141). -/
theorem tickChan_of_no_flag {x : Chan} {s : State} (hq : s.wurqInt = false)
    (ht : (s.chan x).wuState = .awaitingResponse → 1 ≤ (s.chan x).wuTimer) :
    tickChan x s = { s.setChan x (s.chan x).countDown with out := s.out ++ s.timeoutsDue x } := by
  rcases tickChan_cases x s with ⟨hs, e⟩ | ⟨-, hq', -⟩ | ⟨hs, -, h0, e⟩ | ⟨hs, -, h0, e⟩
  · rw [e, countDown_of_not_awaiting hs, timeoutsDue_of_not_due (by simp [hs]), setChan_self, List.append_nil]
  · simp [hq] at hq'
  · have h1 : (s.chan x).wuTimer = 1 := by have := ht hs; omega
    rw [e]
    rcases expire_cases x (s.setChan x { s.chan x with wuTimer := (s.chan x).wuTimer - 1 }) with ⟨hp, e⟩ | ⟨hp, e⟩ <;>
      simp only [setChan_chan_same] at hp
    · rw [e, countDown_retries hs h1 hp, timeoutsDue_of_not_due (by omega), List.append_nil, setChan_chan_same, h1]
      cases x <;> rfl
    · rw [e, countDown_fails hs h1 hp, timeoutsDue_of_due hs h1 hp, setChan_chan_same, h1]
      cases x <;> rfl
  · rw [e, countDown_counts hs (by omega), timeoutsDue_of_not_due (by omega), List.append_nil]
    cases x <;> rfl

/-- With the flag an awaiting channel detects the answer and takes the flag, in whatever millisecond of its window; a queued
request is replayed (R139, R140, R142, R147). -/
theorem tickChan_of_flag {x : Chan} {s : State} (hs : (s.chan x).wuState = .awaitingResponse) (hq : s.wurqInt = true) :
    tickChan x s = { s.setChan x ((s.chan x).detected s.params.rateBaud).replay with
      irqFlags := s.irqFlags &&& 0xBF,
      out := s.out ++ [.established x ((s.chan x).cqctrl.extractLsb' 6 2)
        (rateBaudOf s.params.rateBaud ((s.chan x).cqctrl.extractLsb' 6 2))] } := by
  rcases tickChan_cases x s with ⟨hs', -⟩ | ⟨-, -, e⟩ | ⟨-, hq', -⟩ | ⟨-, hq', -⟩
  · exact absurd hs hs'
  · rw [e]
    cases x <;> rfl
  all_goals simp [hq] at hq'

/-! ## One millisecond of both channels -/

/-- A tick is the sequencers' tick and one tick of the waits, which the sequencers leave alone (R139, R200). -/
theorem tickAll_eq (s : State) : tickAll s = { tickSequencers s with host := s.host.tick, boot := s.boot.tick } := by
  rw [← (tickSequencers_kept s).host, ← (tickSequencers_kept s).boot]
  rfl

/-- A millisecond of one channel leaves the record of the other (R151). -/
theorem tickChan_chan_other (x : Chan) (s : State) : (tickChan x s).chan x.other = s.chan x.other := by
  rcases tickChan_cases x s with ⟨-, e⟩ | ⟨-, -, e⟩ | ⟨-, -, -, e⟩ | ⟨-, -, -, e⟩ <;> rw [e]
  · simp [detect]
  · rcases expire_cases x (s.setChan x { s.chan x with wuTimer := (s.chan x).wuTimer - 1 }) with ⟨-, e⟩ | ⟨-, e⟩ <;>
      simp [e]
  · simp

/-- With the other channel not awaiting, the sequencers' tick is that of the one channel. -/
theorem tickSequencers_of_other_rests {x : Chan} {s : State} (ho : (s.chan x.other).wuState ≠ .awaitingResponse) :
    tickSequencers s = tickChan x s := by
  cases x with
  | a => exact tickChan_of_not_awaiting ((tickChan_chan_other .a s).symm ▸ ho)
  | b => exact congrArg (tickChan .b) (tickChan_of_not_awaiting ho)

theorem tickAll_of_other_rests {x : Chan} {s : State} (ho : (s.chan x.other).wuState ≠ .awaitingResponse) :
    tickAll s = { tickChan x s with host := s.host.tick, boot := s.boot.tick } := by
  rw [tickAll_eq, tickSequencers_of_other_rests ho]

/-- A tick without the flag counts both channels down; A's timeout is reported before B's (R139, R236 (b)). -/
theorem tickAll_of_no_flag {s : State} (hq : s.wurqInt = false)
    (ht : ∀ x, (s.chan x).wuState = .awaitingResponse → 1 ≤ (s.chan x).wuTimer) :
    tickAll s = { s with
      chA := s.chA.countDown, chB := s.chB.countDown, out := s.out ++ s.timeoutsDue .a ++ s.timeoutsDue .b,
      host := s.host.tick, boot := s.boot.tick } := by
  have hA := tickChan_of_no_flag hq (ht .a)
  have hB := tickChan_of_no_flag (x := .b)
    (s := { s with chA := s.chA.countDown, out := s.out ++ s.timeoutsDue .a }) hq (ht .b)
  rw [tickAll_eq, show tickSequencers s = _ from (congrArg (tickChan .b) hA).trans hB]
  rfl

/-- Settles O38: with no request queued the detection of `tickChan_of_flag` stands as it is. -/
theorem tickDetectsTheAnswer : Obligations.TickDetectsTheAnswer := by
  intro s x hs hr ho hq
  have hd : ((s.chan x).detected s.params.rateBaud).replay = (s.chan x).detected s.params.rateBaud := replay_of_none hr
  rw [runEvent, tickAll_of_other_rests ho, tickChan_of_flag hs hq, hd]
  rfl

/-- Settles O39: `tickAll_of_no_flag`, with the cases of `countDown`. -/
theorem tickCountsAndExpires : Obligations.TickCountsAndExpires := by
  intro s hq ht
  have htick := tickAll_of_no_flag hq ht
  have hchan : ∀ x, (tickAll s).chan x = (s.chan x).countDown := by
    intro x
    rw [htick]
    cases x <;> rfl
  refine ⟨tickAll s, rfl, fun x hs => ?_, fun x hs => ⟨fun h2 => ?_, fun h1 hp => ?_, fun h1 hp hr => ?_⟩, ?_⟩
  · rw [hchan, countDown_of_not_awaiting hs]
  · rw [hchan, countDown_counts hs h2]
  · rw [hchan, countDown_retries hs h1 hp]
  · rw [hchan, countDown_fails_unqueued hs h1 hp hr]
  · rw [htick]

/-- Settles O40: the record after the tick is `replay` of the one just reached, Established or Failed. -/
theorem queuedRequestIsReplayed : Obligations.QueuedRequestIsReplayed := by
  rintro s x m hs hr rfl ho
  refine ⟨fun hq => ⟨((s.chan x).detected s.params.rateBaud).replay, ?_, fun hm => ?_, fun hm => ?_⟩,
    fun hq h1 hp => ⟨Channel.replay { s.chan x with wuTimer := 0, wuState := .failed }, ?_, fun hm => ?_, fun hm => ?_⟩⟩
  · rw [runEvent, tickAll_of_other_rests ho, tickChan_of_flag hs hq]
  · exact (replay_of_established (c := (s.chan x).detected s.params.rateBaud) rfl hr).trans (if_pos hm)
  · exact (replay_of_established (c := (s.chan x).detected s.params.rateBaud) rfl hr).trans (if_neg hm)
  · rw [runEvent, tickAll_of_other_rests ho, tickChan_of_no_flag hq (fun _ => h1.ge), countDown_fails hs h1 hp,
      timeoutsDue_of_due hs h1 hp]
  · exact (replay_of_failed (c := { s.chan x with wuTimer := 0, wuState := .failed }) rfl hr).trans (if_pos hm)
  · exact (replay_of_failed (c := { s.chan x with wuTimer := 0, wuState := .failed }) rfl hr).trans (if_neg hm)

/-- Taking the flag leaves it 0 (R139). -/
theorem wurqFlag_taken (f : Byte) : (f &&& 0xBF).getLsbD 6 = false := by simp

/-- The tick in which A takes the shared flag: A detects, and B is counted down as if the flag were clear (R236 (b)). -/
theorem tickAll_of_shared_flag {s : State} (ha : s.chA.wuState = .awaitingResponse) (hr : s.chA.wuRestart = false)
    (hq : s.wurqInt = true) (ht : 1 ≤ s.chB.wuTimer) :
    tickAll s = { s with
      chA := s.chA.detected s.params.rateBaud, chB := s.chB.countDown, irqFlags := s.irqFlags &&& 0xBF,
      out := s.out ++ [.established .a (s.chA.cqctrl.extractLsb' 6 2)
        (rateBaudOf s.params.rateBaud (s.chA.cqctrl.extractLsb' 6 2))] ++ s.timeoutsDue .b,
      host := s.host.tick, boot := s.boot.tick } := by
  have hd : (s.chA.detected s.params.rateBaud).replay = s.chA.detected s.params.rateBaud := replay_of_none hr
  have hA := tickChan_of_flag (x := .a) ha hq
  rw [chan_a, hd] at hA
  have hB := tickChan_of_no_flag (x := .b)
    (s := { s with
      chA := s.chA.detected s.params.rateBaud, irqFlags := s.irqFlags &&& 0xBF,
      out := s.out ++ [.established .a (s.chA.cqctrl.extractLsb' 6 2)
        (rateBaudOf s.params.rateBaud (s.chA.cqctrl.extractLsb' 6 2))] })
    (wurqFlag_taken s.irqFlags) (fun _ => ht)
  rw [tickAll_eq, show tickSequencers s = _ from (congrArg (tickChan .b) hA).trans hB]
  rfl

/-- Settles O41: `tickAll_of_shared_flag`, with the cases of `countDown` for B. -/
theorem channelATakesTheSharedFlag : Obligations.ChannelATakesTheSharedFlag := by
  intro s ha hb hr hq ht
  have htick := tickAll_of_shared_flag ha hr hq ht
  have hchB : (tickAll s).chB = s.chB.countDown := by rw [htick]
  refine ⟨tickAll s, rfl, fun h2 => ?_, fun h1 hp => ?_, fun h1 hp hrb => ?_, ?_⟩
  · rw [hchB, countDown_counts hb h2]
  · rw [hchB, countDown_retries hb h1 hp]
  · rw [hchB, countDown_fails_unqueued hb h1 hp hrb]
  · rw [htick]
    rfl

/-! ## The latching events -/

/-- Settles O45: CycleErr is `latchFault_eq` at its flag; the other two set a fixed flag. -/
theorem otherLineEvents : Obligations.OtherLineEvents := by
  intro s x v fA fB
  refine ⟨?_, rfl, rfl⟩
  rw [runEvent, cycleErr, latchFault_eq]
  cases x <;> rfl

end Sys2Proof.Machine
end

section
/-!
The retry policy in time (41_wakeup_sequencer.md R141): a sequence that gets no answer, window by window.
-/

namespace Sys2Proof.Machine

open Sys2Proof

@[simp] theorem withAgenda_chan (l : List Event) (s : State) (y : Chan) :
    ({ s with agenda := l } : State).chan y = s.chan y := by cases y <;> rfl

/-- The waits are no part of a channel's record. -/
@[simp] theorem tickAll_chan (s : State) (y : Chan) : (tickAll s).chan y = (tickSequencers s).chan y := by
  cases y <;> rfl

theorem tickChan_chan_of_no_flag {x : Chan} {s : State} (hq : s.wurqInt = false)
    (ht : (s.chan x).wuState = .awaitingResponse → 1 ≤ (s.chan x).wuTimer) :
    (tickChan x s).chan x = (s.chan x).countDown := by
  rw [tickChan_of_no_flag hq ht]
  cases x <;> rfl

theorem chan_eq_or_other (x y : Chan) : y = x ∨ y = x.other := by
  cases x <;> cases y <;> decide

/-- On the way from `s₀`, channel X stands in `st` with `k` pulses made and `t` ms of its window left, and `n` Ticks are to
come; the rest of its record, the other channel's and the flags are those of `s₀`, and the output trace is `out`. -/
structure Unanswered (s₀ : State) (x : Chan) (st : WuState) (k t n : Nat) (out : List OutEvent) (s : State) : Prop where
  chan : s.chan x = { s₀.chan x with wuState := st, wuPulses := k, wuTimer := t }
  other : s.chan x.other = s₀.chan x.other
  flags : s.irqFlags = s₀.irqFlags
  agenda : s.agenda = List.replicate n .tick
  trace : s.out = out

section Windows

variable {s₀ s : State} {x : Chan} {k t n w : Nat} {out : List OutEvent}

/-! ## One step -/

/-- The pulse comes before the next Tick and opens its window (R138, R148). -/
theorem Unanswered.pulse (hop : (s₀.chan x.other).wuState ≠ .pulsing)
    (h : Unanswered s₀ x .pulsing k t (n + 1) out s) :
    ∃ u, step s = .next u ∧
      Unanswered s₀ x .awaitingResponse (k + 1) (Config.wuWindow (k + 1)) (n + 1) (out ++ [.wakePulse x]) u := by
  have hs : (s.chan x).wuState = .pulsing := by rw [h.chan]
  have ho : (s.chan x.other).wuState ≠ .pulsing := by rwa [h.other]
  refine ⟨_, (step_pulse h.agenda hs ho).trans (pulseStep_of_pulsing hs), ?_, ?_, ?_, ?_, ?_⟩
  · rw [setChan_chan_same, h.chan]
    rfl
  · rw [setChan_chan_other, wakePulse, emit_chan, h.other]
  · rw [setChan_irqFlags, wakePulse, emit_irqFlags, h.flags]
  · rw [setChan_agenda, wakePulse, emit_agenda, h.agenda]
  · rw [setChan_out, wakePulse, emit_out, h.trace]

variable (hop : (s₀.chan x.other).wuState ≠ .pulsing) (hoa : (s₀.chan x.other).wuState ≠ .awaitingResponse)
  (hq : s₀.wurqInt = false)

include hop hoa hq

/-- A Tick in the window counts channel X down, and reports the timeout if that is due (R139, R141). -/
theorem Unanswered.tick {st : WuState} {t' : Nat} (h : Unanswered s₀ x .awaitingResponse k (t + 1) (n + 1) out s)
    (hc : (s.chan x).countDown = { s₀.chan x with wuState := st, wuPulses := k, wuTimer := t' }) :
    ∃ u, step s = .next u ∧ Unanswered s₀ x st k t' n (out ++ s.timeoutsDue x) u := by
  have hnone : ∀ y, (s.chan y).wuState ≠ .pulsing := by
    intro y
    rcases chan_eq_or_other x y with rfl | rfl
    · simp [h.chan]
    · rwa [h.other]
  generalize hv : ({ s with agenda := List.replicate n .tick } : State) = v
  have hchan : ∀ y, v.chan y = s.chan y := fun y => by rw [← hv, withAgenda_chan]
  have hvq : v.wurqInt = false := by rw [State.wurqInt, ← hv, h.flags]; exact hq
  have hvt : (v.chan x).wuState = .awaitingResponse → 1 ≤ (v.chan x).wuTimer := by simp [hchan, h.chan]
  have hvo : (v.chan x.other).wuState ≠ .awaitingResponse := by rwa [hchan, h.other]
  have htick : tickAll v = _ := (tickAll_of_other_rests hvo).trans (by rw [tickChan_of_no_flag hvq hvt])
  refine ⟨tickAll v, hv ▸ step_tick h.agenda hnone, ?_, ?_, ?_, ?_, ?_⟩
  · rw [tickAll_chan, tickSequencers_of_other_rests hvo, tickChan_chan_of_no_flag hvq hvt, hchan, hc]
  · rw [tickAll_chan, tickSequencers_of_other_rests hvo, tickChan_chan_other, hchan, h.other]
  · rw [htick, ← h.flags, ← hv]
    exact setChan_irqFlags ..
  · rw [htick, ← hv]
    exact setChan_agenda ..
  · rw [htick, ← h.trace, State.timeoutsDue, State.timeoutsDue, hchan, ← hv]

/-- Before the last millisecond of a window a Tick only counts (R139). -/
theorem Unanswered.tick_counts (h : Unanswered s₀ x .awaitingResponse k (t + 2) (n + 1) out s) :
    ∃ u, step s = .next u ∧ Unanswered s₀ x .awaitingResponse k (t + 1) n out u := by
  have hdue : s.timeoutsDue x = [] := timeoutsDue_of_not_due (by simp [h.chan])
  have hc := countDown_counts (c := s.chan x) (by rw [h.chan]) (by simp [h.chan])
  simpa [hdue] using h.tick hop hoa hq (hc.trans (by rw [h.chan]; rfl))

/-- The end of a window with pulses left brings the next pulse (R141). -/
theorem Unanswered.tick_retries (h : Unanswered s₀ x .awaitingResponse k 1 (n + 1) out s) (hk : k < 5) :
    ∃ u, step s = .next u ∧ Unanswered s₀ x .pulsing k 0 n out u := by
  have hdue : s.timeoutsDue x = [] := timeoutsDue_of_not_due (by simp [h.chan, hk])
  have hc := countDown_retries (c := s.chan x) (by rw [h.chan]) (by rw [h.chan]) (by rw [h.chan]; exact hk)
  simpa [hdue] using h.tick hop hoa hq (hc.trans (by rw [h.chan]))

/-- The end of the fifth window is the failure of the sequence (R141). -/
theorem Unanswered.tick_fails (hr : (s₀.chan x).wuRestart = false)
    (h : Unanswered s₀ x .awaitingResponse 5 1 (n + 1) out s) :
    ∃ u, step s = .next u ∧ Unanswered s₀ x .failed 5 0 n (out ++ [.wakeUpTimeout x]) u := by
  have hdue : s.timeoutsDue x = [.wakeUpTimeout x] := timeoutsDue_of_due (by rw [h.chan]) (by rw [h.chan]) (by rw [h.chan])
  have hc := countDown_fails_unqueued (c := s.chan x) (by rw [h.chan]) (by rw [h.chan]) (by rw [h.chan])
    (by rw [h.chan]; exact hr)
  simpa [hdue] using h.tick hop hoa hq (hc.trans (by rw [h.chan]))

/-! ## One window -/

/-- A window runs down to its last millisecond. -/
theorem Unanswered.run_counts (h : Unanswered s₀ x .awaitingResponse k (w + 1) (n + w) out s) :
    ∃ u, Host.Core.run Sys2Proof.core w s = .next u ∧ Unanswered s₀ x .awaitingResponse k 1 n out u := by
  induction w generalizing s with
  | zero => exact ⟨s, rfl, h⟩
  | succ w ih =>
    obtain ⟨v, hv, hcount⟩ := h.tick_counts hop hoa hq
    obtain ⟨u, hu, hlast⟩ := ih hcount
    exact ⟨u, (run_succ w hv).trans hu, hlast⟩

/-- A pulse and the window after it, but for its last millisecond. -/
theorem Unanswered.run_to_last (h : Unanswered s₀ x .pulsing k t (n + (w + 1)) out s)
    (hw : Config.wuWindow (k + 1) = w + 1) :
    ∃ u, Host.Core.run Sys2Proof.core (w + 1) s = .next u ∧
      Unanswered s₀ x .awaitingResponse (k + 1) 1 (n + 1) (out ++ [.wakePulse x]) u := by
  obtain ⟨v, hv, hopen⟩ := Unanswered.pulse (n := n + w) hop h
  rw [hw, Nat.add_right_comm] at hopen
  obtain ⟨u, hu, hlast⟩ := hopen.run_counts hop hoa hq
  exact ⟨u, (run_succ w hv).trans hu, hlast⟩

/-- A pulse with a window of `w + 1` ms that is not the last: the next pulse is due when it ends (R141). -/
theorem Unanswered.run_window (h : Unanswered s₀ x .pulsing k t (n + (w + 1)) out s)
    (hw : Config.wuWindow (k + 1) = w + 1) (hk : k + 1 < 5) :
    ∃ u, Host.Core.run Sys2Proof.core (w + 2) s = .next u ∧
      Unanswered s₀ x .pulsing (k + 1) 0 n (out ++ [.wakePulse x]) u := by
  obtain ⟨v, hv, hlast⟩ := h.run_to_last hop hoa hq hw
  obtain ⟨u, hu, hnext⟩ := hlast.tick_retries hop hoa hq hk
  exact ⟨u, (run_add (w + 1) 1 hv).trans (run_succ 0 hu), hnext⟩

/-- The fifth pulse and its window, at whose end the sequence fails (R141). -/
theorem Unanswered.run_last_window (hr : (s₀.chan x).wuRestart = false)
    (h : Unanswered s₀ x .pulsing 4 t (n + 20) out s) :
    ∃ u, Host.Core.run Sys2Proof.core 21 s = .next u ∧
      Unanswered s₀ x .failed 5 0 n (out ++ [.wakePulse x] ++ [.wakeUpTimeout x]) u := by
  obtain ⟨v, hv, hlast⟩ := Unanswered.run_to_last (w := 19) hop hoa hq h rfl
  obtain ⟨u, hu, hfail⟩ := hlast.tick_fails hop hoa hq hr
  exact ⟨u, (run_add 20 1 hv).trans (run_succ 0 hu), hfail⟩

end Windows

theorem Unanswered.standing {s₀ s : State} {x : Chan} {st : WuState} {k t n : Nat} {out : List OutEvent}
    (h : Unanswered s₀ x st k t n out s) :
    (s.chan x).wuState = st ∧ (s.chan x).wuPulses = k ∧ s.agenda = List.replicate n .tick :=
  ⟨by rw [h.chan], by rw [h.chan], h.agenda⟩

/-- Settles O42: four windows of `run_window`, of 10, 10, 20 and 20 ms, and the last one of `run_last_window`. -/
theorem wakeUpFailsAfterFivePulsesAndEightyTicks : Obligations.WakeUpFailsAfterFivePulsesAndEightyTicks := by
  intro s x hs hk hr hop hoa hq ha
  have h0 : Unanswered s x .pulsing 0 (s.chan x).wuTimer 80 s.out s := ⟨by rw [← hs, ← hk], rfl, rfl, ha, rfl⟩
  obtain ⟨s1, hrun1, h1⟩ := Unanswered.run_window (n := 70) (w := 9) hop hoa hq h0 rfl (by decide)
  obtain ⟨s2, hrun2, h2⟩ := Unanswered.run_window (n := 60) (w := 9) hop hoa hq h1 rfl (by decide)
  obtain ⟨s3, hrun3, h3⟩ := Unanswered.run_window (n := 40) (w := 19) hop hoa hq h2 rfl (by decide)
  obtain ⟨s4, hrun4, h4⟩ := Unanswered.run_window (n := 20) (w := 19) hop hoa hq h3 rfl (by decide)
  obtain ⟨s5, hrun5, h5⟩ := Unanswered.run_last_window (n := 0) hop hoa hq hr h4
  have hrun22 := (run_add 11 11 hrun1).trans hrun2
  have hrun43 := (run_add 22 21 hrun22).trans hrun3
  have hrun64 := (run_add 43 21 hrun43).trans hrun4
  have hrun85 := (run_add 64 21 hrun64).trans hrun5
  obtain ⟨hstate, hpulses, hagenda⟩ := h5.standing
  refine ⟨⟨s1, hrun1, h1.standing⟩, ⟨s2, hrun22, h2.standing⟩, ⟨s3, hrun43, h3.standing⟩, ⟨s4, hrun64, h4.standing⟩,
    s5, hrun85, hstate, hpulses, hagenda, ?_⟩
  rw [h5.trace]
  simp only [List.append_assoc]
  rfl

end Sys2Proof.Machine
end

section
/-!
Channel independence (41_wakeup_sequencer.md R151, 10_state.md R12): what is done on one channel leaves the record of the
other, operation by operation.
-/

namespace Sys2Proof.Machine

open Sys2Proof

/-! ## The framer and the line events -/

@[simp] theorem txPush_chan_other (x : Chan) (v : Byte) (s : State) : (txPush x v s).chan x.other = s.chan x.other := by
  rcases txPush_cases x v s with ⟨-, e⟩ | ⟨-, e⟩ <;> simp [e]

@[simp] theorem sendLoaded_chan_other (x : Chan) (s : State) : (sendLoaded x s).chan x.other = s.chan x.other := by
  rcases sendLoaded_cases x s with ⟨-, -, e⟩ | ⟨u, rfl | rfl, e⟩ <;> simp [e]

theorem latchUnless_chan_other (b : Bool) (x : Chan) (k : CqErrFlag) (s : State) :
    (if b = true then s else latchFault x k s).chan x.other = s.chan x.other := by
  cases b <;> simp

@[simp] theorem lineRxChar_chan_other (x : Chan) (b : Byte) (p f : Bool) (s : State) :
    (lineRxChar x b p f s).chan x.other = s.chan x.other := by
  unfold lineRxChar
  split
  · rfl
  · dsimp only
    refine Eq.trans ?_ ((latchUnless_chan_other f x .frame _).trans
      ((latchUnless_chan_other p x .parity _).trans
        (setChan_chan_other s x { s.chan x with rxmsg := (s.chan x).rxmsg ++ [b] })))
    generalize (if f = true then _ else _) = judged
    split
    · exact setChan_chan_other ..
    · exact latchFault_chan_other ..

@[simp] theorem lineRxEnd_chan_other (x : Chan) (s : State) : (lineRxEnd x s).chan x.other = s.chan x.other := by
  unfold lineRxEnd
  dsimp only
  split
  · split <;> simp
  · rfl

@[simp] theorem lineNoReply_chan_other (x : Chan) (s : State) : (lineNoReply x s).chan x.other = s.chan x.other := by
  unfold lineNoReply
  dsimp only
  split
  · simp
  · rfl

/-! ## The paired registers -/

@[simp] theorem afterTriggers_chan_other (s : State) (x : Chan) (v : Byte) :
    (s.afterTriggers x v).chan x.other = s.chan x.other := by
  cases x <;> rfl

theorem cqSend_chan_other {x : Chan} {s t : State} (h : cqSend x s = .next t) : t.chan x.other = s.chan x.other := by
  rcases cqSend_eq_next h with ⟨-, rfl⟩ | ⟨-, -, -, rfl⟩ | ⟨-, -, -, rfl⟩ <;> simp

theorem writeCqCtrl_chan_other {x : Chan} {v : Byte} {s t : State} (h : writeCqCtrl x v s = .next t) :
    t.chan x.other = s.chan x.other := by
  rcases writeCqCtrl_eq_next h with ⟨-, rfl⟩ | ⟨-, hs⟩
  · rw [cqCtrlTriggers_eq, afterTriggers_chan_other]
  · rw [cqSend_chan_other hs, cqCtrlTriggers_eq, afterTriggers_chan_other]

/-- A write of a paired register leaves the other channel, but for the reset by ChanStat (R12, R26). -/
theorem regWrite_chan_other {r : Reg} {x : Chan} {v : Byte} {s t : State} (hr : pairChan? r = some x)
    (hrst : ¬(r = .chanStat x ∧ v.getLsbD 7 = true)) (h : regWrite r v s = .next t) :
    t.chan x.other = s.chan x.other := by
  cases r with
  | txRxData y => cases hr; cases h; simp
  | rxFifoLvl y => cases h; rfl
  | cqCtrl y => cases hr; exact writeCqCtrl_chan_other h
  | cqErr y => cases h; rfl
  | msgCtrl y => cases hr; cases h; simp [setMsgCtrl]
  | chanStat y =>
    cases hr
    cases h
    have h7 : v.getLsbD 7 = false := by simpa using hrst
    rw [writeChanStat_of_not_rst h7, setChan_chan_other]
  | interrupt | interruptEn | store _ | status | revId => cases hr

/-- A read of a paired register leaves the other channel (R12). -/
theorem regRead_chan_other {r : Reg} {x : Chan} (hr : pairChan? r = some x) (s : State) :
    (regRead r s).2.chan x.other = s.chan x.other := by
  cases r with
  | txRxData y =>
    cases hr
    rcases rxPop_cases x s with ⟨-, e⟩ | ⟨b, rest, -, e⟩ <;> rw [regRead, e]
    · exact withPort_chan s.spi _ s _
    · exact setChan_chan_other ..
  | cqErr y => cases hr; exact setChan_chan_other ..
  | rxFifoLvl y | cqCtrl y | msgCtrl y | chanStat y => rfl
  | interrupt | interruptEn | store _ | status | revId => cases hr

/-- A write transaction leaves what its register's write leaves of a channel. -/
theorem exec_writeInstr_chan {r : Reg} {chip : ChipAddr} {v : Byte} {s t : State} {y : Chan}
    (h : exec (writeInstr r chip v) s = .next t)
    (hw : ∀ u w, regWrite r v u = .next w → w.chan y = u.chan y) : t.chan y = s.chan y := by
  rw [exec_writeInstr] at h
  rcases spiWrite_eq_next h with ⟨-, ha⟩ | ⟨-, rfl⟩
  · rw [hw _ _ ha, spiShift_chan]
  · exact spiShift_chan ..

/-- A read transaction leaves what its register's read leaves of a channel. -/
theorem exec_readInstr_chan {r : Reg} {chip : ChipAddr} {d : Byte} {s t : State} {y : Chan}
    (h : exec (readInstr r chip d) s = .next t) (hr : ∀ u, (regRead r u).2.chan y = u.chan y) : t.chan y = s.chan y := by
  rw [exec_readInstr] at h
  by_cases hc : chip = s.params.chipAddr
  · rw [spiRead_own hc] at h
    cases h
    exact (withPort_chan _ _ _ y).trans ((hr _).trans (spiShift_chan ..))
  · rw [spiRead_other hc] at h
    cases h
    exact spiShift_chan ..

/-! ## The events -/

/-- A mode request leaves the other channel (R132). -/
theorem exec_modeInstr_chan_other {m : BitVec 2} {x : Chan} {s t : State} (h : exec (modeInstr m x) s = .next t) :
    t.chan x.other = s.chan x.other := by
  rcases modeCode_or_reserved m with ⟨mode, rfl⟩ | rfl
  · rw [modeInstr_modeCode, exec_modeRow] at h
    cases h
    exact setChan_chan_other ..
  · cases h

theorem pulseStep_chan_other {x : Chan} {s t : State} (h : pulseStep x s = .next t) :
    t.chan x.other = s.chan x.other := by
  obtain ⟨-, rfl⟩ := pulseStep_eq_next h
  rw [setChan_chan_other, wakePulse, emit_chan]

/-- An event of one channel leaves the other (R151). -/
theorem runEvent_chan_other {e : Event} {x : Chan} {s t : State} (he : eventChan? e = some x)
    (h : runEvent e s = .next t) : t.chan x.other = s.chan x.other := by
  cases e with
  | cmd3 w => cases he; exact exec_modeInstr_chan_other h
  | pulse y => cases he; exact pulseStep_chan_other h
  | lineWurq y => cases h; exact setIrq_chan ..
  | lineRxChar y b p f => cases he; cases h; exact lineRxChar_chan_other ..
  | lineRxEnd y => cases he; cases h; exact lineRxEnd_chan_other ..
  | lineNoReply y => cases he; cases h; exact lineNoReply_chan_other ..
  | cycleErr y => cases he; cases h; exact latchFault_chan_other ..
  | spi _ _ _ | tick | statusEvent _ _ _ | powerOnReset | hostCall _ _ | hostStep _ _ => cases he

/-- Settles O51: events by `runEvent_chan_other`, accesses by `regWrite_chan_other` and `regRead_chan_other`; a tick on which
X' does not await is a tick of X alone. -/
theorem channelsAreIndependent : Obligations.ChannelsAreIndependent := by
  intro s t x
  refine ⟨fun e he h => runEvent_chan_other he h, fun r chip v hr hrst h => ?_, fun r chip v hr h => ?_, fun ho h => ?_⟩
  · exact exec_writeInstr_chan h fun _ _ hw => regWrite_chan_other hr hrst hw
  · exact exec_readInstr_chan h fun u => regRead_chan_other hr u
  · cases h
    rw [tickAll_chan, tickSequencers_of_other_rests ho, tickChan_chan_other]

end Sys2Proof.Machine
end

section
/-!
The statements of 42_message_framer.md about the FIFO accesses (R161, R162) and the line events (R176 to R178). Whatever a
line event of the framer of X changes is the record of channel X and the interrupt flags, so each is one `withFlags`.
-/

namespace Sys2Proof.Machine

open Sys2Proof

/-! ## The channel record and the interrupt flags together -/

/-- The state with that record for channel X and those interrupt flags. -/
def State.withFlags (x : Chan) (c : Channel) (flags : Byte) (s : State) : State := { s.setChan x c with irqFlags := flags }

@[simp] theorem withFlags_chan (x : Chan) (c : Channel) (flags : Byte) (s : State) : (s.withFlags x c flags).chan x = c := by
  cases x <;> rfl

@[simp] theorem withFlags_irqFlags (x : Chan) (c : Channel) (flags : Byte) (s : State) :
    (s.withFlags x c flags).irqFlags = flags := rfl

@[simp] theorem withFlags_withFlags (x : Chan) (c d : Channel) (flags flags' : Byte) (s : State) :
    (s.withFlags x c flags).withFlags x d flags' = s.withFlags x d flags' := by
  cases x <;> rfl

@[simp] theorem setChan_withFlags (x : Chan) (c d : Channel) (flags : Byte) (s : State) :
    (s.withFlags x c flags).setChan x d = s.withFlags x d flags := by
  cases x <;> rfl

theorem setChan_eq_withFlags (x : Chan) (c : Channel) (s : State) : s.setChan x c = s.withFlags x c s.irqFlags := by
  cases x <;> rfl

theorem setIrq_eq_withFlags (x : Chan) (m : Byte) (s : State) :
    setIrq m s = s.withFlags x (s.chan x) (s.irqFlags ||| m) := by
  cases x <;> rfl

theorem latchFault_eq_withFlags (x : Chan) (k : CqErrFlag) (s : State) : latchFault x k s =
    s.withFlags x { s.chan x with cqerr := (s.chan x).cqerr ||| k.mask } (s.irqFlags ||| k.irqMask x) :=
  latchFault_eq x k s

/-- A fault latched unless its check passed sets the bits of its flag, or none (R170). -/
theorem latchUnless_eq_withFlags (ok : Bool) (x : Chan) (k : CqErrFlag) (s : State) :
    (if ok = true then s else latchFault x k s) =
      s.withFlags x { s.chan x with cqerr := (s.chan x).cqerr ||| (if ok then 0x00 else k.mask) }
        (s.irqFlags ||| (if ok then 0x00 else k.irqMask x)) := by
  cases ok with
  | true =>
    simp only [if_true, BitVec.ofNat_eq_ofNat, BitVec.or_zero]
    cases x <;> rfl
  | false => exact latchFault_eq_withFlags x k s

/-! ## The FIFO accesses -/

theorem rxPop_of_cons {x : Chan} {s : State} {b : Byte} {rest : List Byte} (h : (s.chan x).rxfifo = b :: rest) :
    rxPop x s = (b, s.setChan x { s.chan x with rxfifo := rest }) := by
  rw [rxPop, h]

/-- A pop of an empty FIFO draws the next free value and changes nothing of the block (R162). -/
theorem rxPop_withPort_of_empty {x : Chan} {s : State} (h : (s.chan x).rxfifo = []) (p : SpiPort) (n : Nat) :
    rxPop x (s.withPort p n) = (Config.freeByte n, s.withPort p (n + 1)) := by
  rw [rxPop, withPort_chan, h]
  rfl

/-- The read of TxRxDataX that pops an empty FIFO completes with the state as it was, off the port. -/
theorem readTxRxData_completes_of_empty {x : Chan} {chip : ChipAddr} {d : Byte} {s : State} (hc : chip = s.params.chipAddr)
    (h : (s.chan x).rxfifo = []) : Completes (readInstr (.txRxData x) chip d) s s := by
  refine ⟨s.withPort { shiftedPort (commandByte 1#1 chip (Reg.txRxData x).addr) s with
    sdoData := Config.freeByte (s.draws + 2) } (s.draws + 3), ?_, agreesOffPort_withPort _ rfl rfl⟩
  rw [exec_readInstr, spiRead_own hc, spiShift_eq_withPort, regRead, rxPop_withPort_of_empty h]
  rfl

/-- Settles O27: each branch of the push (`txPush_cases`) is one clause. -/
theorem txRxDataWritePushes : Obligations.TxRxDataWritePushes := by
  intro s x chip v hc
  have hwrite : ∀ {u : State}, txPush x v s = u →
      Completes (pairRow x (.wrTxRxDataA chip v) (.wrTxRxDataB chip v)) s u :=
    fun e => writePair_completes .txRxData hc nofun (congrArg Host.Outcome.next e)
  rcases txPush_cases x v s with ⟨hroom, e⟩ | ⟨hfull, e⟩
  · exact ⟨fun _ => hwrite e, fun hfull => absurd hroom (Nat.not_lt.mpr hfull)⟩
  · refine ⟨fun hroom => absurd hroom (Nat.not_lt.mpr hfull), fun _ => hwrite ?_⟩
    rw [e, latchFault_eq]
    cases x <;> rfl

/-- Settles O28: a FIFO with a byte answers it by `rxPop_of_cons`; an empty one is `readTxRxData_completes_of_empty`. -/
theorem txRxDataReadPops : Obligations.TxRxDataReadPops := by
  intro s x chip d hc
  refine ⟨fun b rest hcons => ?_, fun hempty => ?_⟩
  · refine readPair_answers .txRxData hc ?_ (rxPop_of_cons hcons)
    rintro y ⟨⟩
    rw [hcons]
    exact List.cons_ne_nil b rest
  · have hrow : pairRow x (.rdTxRxDataA chip d) (.rdTxRxDataB chip d) = readInstr (.txRxData x) chip d :=
      pairRow_eq (fun y => readInstr (.txRxData y) chip d) x
    rw [hrow]
    exact readTxRxData_completes_of_empty hc hempty

/-! ## A received character -/

theorem lineRxChar_framer_off {x : Chan} {s : State} (hf : (s.chan x).framerEn = false) (b : Byte) (p f : Bool) :
    lineRxChar x b p f s = s := if_pos hf

/-- A character onto the receive FIFO: stored below 64 bytes, else dropped with RSizeErr (R176, R182). -/
theorem rxStore_eq_withFlags (x : Chan) (b : Byte) (s : State) :
    (if fifoHasRoom (s.chan x).rxfifo = true then s.setChan x { s.chan x with rxfifo := fifoPush (s.chan x).rxfifo b }
      else latchFault x .rxSize s) =
    s.withFlags x { s.chan x with
        rxfifo := if (s.chan x).rxfifo.length < 64 then (s.chan x).rxfifo ++ [b] else (s.chan x).rxfifo,
        cqerr := (s.chan x).cqerr ||| (if (s.chan x).rxfifo.length < 64 then 0x00 else 0x04) }
      (s.irqFlags ||| (if (s.chan x).rxfifo.length < 64 then 0x00 else rxErrorMask x)) := by
  by_cases hroom : (s.chan x).rxfifo.length < 64
  · simp only [fifoHasRoom, Config.fifoDepth, fifoPush, hroom, decide_true, if_true, BitVec.ofNat_eq_ofNat, BitVec.or_zero]
    exact setChan_eq_withFlags _ _ _
  · simp only [fifoHasRoom, Config.fifoDepth, hroom, decide_false, Bool.false_eq_true, if_false]
    exact latchFault_eq_withFlags x .rxSize s

/-- A flag set by each of two checks that fails is set once unless both pass: flags are latched, not counted (R18). -/
theorem mask_or_mask_unless (m : Byte) (P Q : Prop) [Decidable P] [Decidable Q] :
    (if P then 0x00 else m) ||| (if Q then 0x00 else m) = if P ∧ Q then 0x00 else m := by
  by_cases hP : P
  · simp [hP]
  · by_cases hQ : Q <;> simp [hP, hQ]

/-- The same of the three verdicts on a character, over the flags latched before. -/
theorem or_mask_unless_all (flags m : Byte) (P Q R : Prop) [Decidable P] [Decidable Q] [Decidable R] :
    flags ||| (if P then 0x00 else m) ||| (if Q then 0x00 else m) ||| (if R then 0x00 else m) =
      flags ||| (if P ∧ Q ∧ R then 0x00 else m) := by
  rw [BitVec.or_assoc, BitVec.or_assoc, mask_or_mask_unless, mask_or_mask_unless]

/-- What an enabled framer does with a character (R176). -/
theorem lineRxChar_framer_on {x : Chan} {s : State} (hf : (s.chan x).framerEn = true) (b : Byte) (p f : Bool) :
    lineRxChar x b p f s = s.withFlags x { s.chan x with
        rxmsg := (s.chan x).rxmsg ++ [b],
        rxfifo := if (s.chan x).rxfifo.length < 64 then (s.chan x).rxfifo ++ [b] else (s.chan x).rxfifo,
        cqerr := (s.chan x).cqerr ||| (if p then 0x00 else 0x01) ||| (if f then 0x00 else 0x02) |||
          (if (s.chan x).rxfifo.length < 64 then 0x00 else 0x04) }
      (s.irqFlags ||| (if p = true ∧ f = true ∧ (s.chan x).rxfifo.length < 64 then 0x00 else rxErrorMask x)) := by
  unfold lineRxChar
  rw [if_neg (by simp [hf]), ← or_mask_unless_all]
  dsimp only
  rw [rxStore_eq_withFlags]
  simp only [latchUnless_eq_withFlags, setChan_eq_withFlags, withFlags_chan, withFlags_irqFlags, withFlags_withFlags]
  rfl

/-- Settles O43: `lineRxChar_framer_off` and `lineRxChar_framer_on`. -/
theorem receivedCharacterIsStoredAndJudged : Obligations.ReceivedCharacterIsStoredAndJudged := by
  intro s x b p f
  refine ⟨fun hf => ?_, fun hf => ?_⟩
  · rw [runEvent, lineRxChar_framer_off hf]
  · rw [runEvent, lineRxChar_framer_on hf]
    cases x <;> rfl

/-! ## The end of a reply -/

/-- The absence of an awaited reply (R178). -/
theorem lineNoReply_of_awaited {x : Chan} {s : State} (hf : (s.chan x).framerEn = true) (hx : (s.chan x).xfer = .xAwait) :
    lineNoReply x s = s.withFlags x { s.chan x with cqerr := (s.chan x).cqerr ||| 0x80, xfer := .xIdle }
      (s.irqFlags ||| txErrorMask x) := by
  unfold lineNoReply
  dsimp only
  rw [if_pos ⟨hf, hx⟩]
  simp only [latchFault_eq_withFlags, withFlags_chan, setChan_withFlags]
  rfl

/-- The end of an awaited reply, with the verdict of the receive check (R167, R177). -/
theorem lineRxEnd_of_awaited {x : Chan} {s : State} (hf : (s.chan x).framerEn = true) (hx : (s.chan x).xfer = .xAwait) :
    lineRxEnd x s = s.withFlags x { s.chan x with
        cqerr := (s.chan x).cqerr |||
          (if (s.chan x).msgCtrl.getLsbD 2 = true ∧ Config.cksOk .rx (s.chan x).rxmsg = false then 0x08 else 0x00),
        xfer := .xIdle }
      (s.irqFlags ||| rxDataRdyMask x |||
        (if (s.chan x).msgCtrl.getLsbD 2 = true ∧ Config.cksOk .rx (s.chan x).rxmsg = false then rxErrorMask x else 0x00)) := by
  have hcheck : (rChksEn (s.chan x).msgCtrl && !Config.cksOk .rx (s.chan x).rxmsg) = true ↔
      (s.chan x).msgCtrl.getLsbD 2 = true ∧ Config.cksOk .rx (s.chan x).rxmsg = false := by
    rw [rChksEn, Bool.and_eq_true, Bool.not_eq_true']
  unfold lineRxEnd
  dsimp only
  rw [if_pos ⟨hf, hx⟩]
  simp only [hcheck]
  by_cases hbad : (s.chan x).msgCtrl.getLsbD 2 = true ∧ Config.cksOk .rx (s.chan x).rxmsg = false
  · have hflags : s.irqFlags ||| rxDataRdyMask x ||| rxErrorMask x = s.irqFlags ||| rxErrorMask x ||| rxDataRdyMask x := by
      rw [BitVec.or_assoc, BitVec.or_comm (rxDataRdyMask x), BitVec.or_assoc]
    simp only [if_pos hbad, hflags, setIrq_eq_withFlags x, latchFault_eq_withFlags, withFlags_chan, withFlags_irqFlags,
      withFlags_withFlags, setChan_withFlags]
    rfl
  · simp only [if_neg hbad, setIrq_eq_withFlags x, withFlags_chan, setChan_withFlags, BitVec.ofNat_eq_ofNat, BitVec.or_zero]

/-- Without an awaited reply its end and its absence change nothing (R177, R178). -/
theorem replyEvents_of_not_awaited {x : Chan} {s : State} (h : ¬((s.chan x).framerEn = true ∧ (s.chan x).xfer = .xAwait)) :
    lineRxEnd x s = s ∧ lineNoReply x s = s := ⟨if_neg h, if_neg h⟩

/-- Settles O44: `lineNoReply_of_awaited`, `lineRxEnd_of_awaited`, and `replyEvents_of_not_awaited` for both ways of not
awaiting. -/
theorem replyEndAndNoReply : Obligations.ReplyEndAndNoReply := by
  intro s x
  refine ⟨fun hf hx => ⟨?_, ?_⟩, fun hno => ?_⟩
  · rw [runEvent, lineNoReply_of_awaited hf hx]
    cases x <;> rfl
  · rw [runEvent, lineRxEnd_of_awaited hf hx]
    cases x <;> rfl
  · have hidle : ¬((s.chan x).framerEn = true ∧ (s.chan x).xfer = .xAwait) := by
      rcases hno with h | h <;> simp [h]
    obtain ⟨hend, hnone⟩ := replyEvents_of_not_awaited hidle
    exact ⟨congrArg Host.Outcome.next hend, congrArg Host.Outcome.next hnone⟩

end Sys2Proof.Machine
end

section
/-!
The bounds of `sendIOLData` (43_host_sequences.md R208, R209): they are a property of the tasks in the slots alone, so what
keeps the host side keeps them, and an action of a sequence is judged by the task it puts in its slot.
-/

namespace Sys2Proof.Machine

open Sys2Proof

/-! ## What keeps the bounds -/

/-- The same host side runs the same sequences. -/
theorem State.HostBounded.of_host {s t : State} (h : s.HostBounded) (hh : t.host = s.host) : t.HostBounded := by
  intro slot r hr
  rw [hh] at hr
  exact h slot r hr

theorem become_keeps_bounds (slot : Slot) {task : Task} (n : Nat) {s : State} (h : s.HostBounded) (ht : task.Bounded) :
    (become slot task n s).HostBounded := by
  intro sl r hr
  rw [become_task] at hr
  split at hr
  · cases hr
    exact ht
  · exact h sl r hr

theorem finish_keeps_bounds (slot : Slot) (q : HostResult) {s : State} (h : s.HostBounded) :
    (finish slot q s).HostBounded := by
  intro sl r hr
  rw [finish_task] at hr
  split at hr
  · cases hr
  · exact h sl r hr

theorem answer_keeps_bounds (slot : Slot) (q : HostResult) {s : State} (h : s.HostBounded) :
    (answer slot q s).HostBounded := by
  intro sl r hr
  rw [answer_task] at hr
  exact h sl r hr

/-- A tick counts waits and leaves the tasks (R200). -/
theorem tickAll_keeps_bounds {s : State} (h : s.HostBounded) : (tickAll s).HostBounded := by
  intro sl r hr
  rw [tickAll_eq] at hr
  obtain ⟨q, hq, rfl⟩ := Option.map_eq_some_iff.mp ((tick_task s.host sl).symm.trans hr)
  exact h sl q hq

/-! ## The actions of a sequence -/

theorem transact_keeps_bounds {slot : Slot} {rw : BitVec 1} {a : RegAddr} {d : Byte} {st : SpiStatus}
    {k : Byte → State → State} {s t : State} (h : s.HostBounded) (ht : transact slot rw a d st k s = .next t)
    (hk : ∀ b u, u.HostBounded → (k b u).HostBounded) : t.HostBounded := by
  obtain ⟨u, hu, ⟨-, rfl⟩ | ⟨-, rfl⟩⟩ := transact_eq_next ht
  · exact hk _ _ (h.of_host (deliverSpi_kept hu).host)
  · exact finish_keeps_bounds slot _ (h.of_host (deliverSpi_kept hu).host)

/-- A sequence of writes has no bounds of its own. -/
theorem afterWrites_keeps_bounds (slot : Slot) {mk : List (RegAddr × Byte) → Task} (hmk : ∀ ws, (mk ws).Bounded)
    {fin : State → State} (hf : ∀ u : State, u.HostBounded → (fin u).HostBounded) (ws : List (RegAddr × Byte)) {s : State}
    (h : s.HostBounded) : (afterWrites slot mk fin ws s).HostBounded := by
  cases ws with
  | nil => exact hf s h
  | cons w ws => exact become_keeps_bounds slot 0 h (hmk _)

/-- `ports_init` is no part of what runs in the slots (R205). -/
theorem setPortsInit_task (h : HostSide) (b : Bool) (sl : Slot) : ({ h with portsInit := b } : HostSide).task sl = h.task sl := by
  rcases sl with _ | ⟨_ | _⟩ <;> rfl

theorem finishInit_keeps_bounds (slot : Slot) {s : State} (h : s.HostBounded) : (finishInit slot s).HostBounded :=
  finish_keeps_bounds slot .ok (s := { s with host := { s.host with portsInit := true } }) fun sl r hr =>
    h sl r ((setPortsInit_task s.host true sl).symm.trans hr)

theorem afterPops_keeps_bounds (slot : Slot) {c : SendCtx} (hc : c.Bounded) {s : State} (h : s.HostBounded) :
    (afterPops slot c s).HostBounded := by
  unfold afterPops
  split
  · exact become_keeps_bounds slot _ h hc
  · split <;> exact become_keeps_bounds slot _ h hc

/-- The pops a level read starts are no more than the bytes still expected (R209). -/
theorem afterLevel_keeps_bounds (slot : Slot) {c : SendCtx} (hc : c.Bounded) (lvl : Byte) {s : State}
    (h : s.HostBounded) : (afterLevel slot c lvl s).HostBounded := by
  unfold afterLevel
  split
  · exact afterPops_keeps_bounds slot hc h
  · exact become_keeps_bounds slot _ h ⟨hc, by omega⟩

/-- A pop takes one byte in, one of those that were still expected (R209). -/
theorem afterPop_keeps_bounds (slot : Slot) {c : SendCtx} {n : Nat} (hc : c.Bounded)
    (hn : c.got.length + n + 1 ≤ c.expected) (b : Byte) {s : State} (h : s.HostBounded) :
    (afterPop slot c n b s).HostBounded := by
  have hgot : (c.got ++ [b]).length = c.got.length + 1 := List.length_append
  have hc' : SendCtx.Bounded { c with got := c.got ++ [b] } := ⟨by simp only [hgot]; omega, hc.2⟩
  cases n with
  | zero => exact afterPops_keeps_bounds slot hc' h
  | succ k => exact become_keeps_bounds slot _ h ⟨hc', by simp only [hgot]; omega⟩

/-- Every action of a sequence within its bounds keeps the bounds (R200 to R210). -/
theorem runTask_keeps_bounds {slot : Slot} {task : Task} {st : SpiStatus} {s t : State} (h : s.HostBounded)
    (hb : task.Bounded) (ht : runTask slot task st s = .next t) : t.HostBounded := by
  unfold runTask at ht
  cases task with
  | writes ws =>
    cases ws with
    | nil => cases ht; exact finish_keeps_bounds slot _ h
    | cons w ws =>
      exact transact_keeps_bounds h ht fun _ _ =>
        afterWrites_keeps_bounds slot (mk := .writes) (fun _ => trivial) (fun _ => finish_keeps_bounds slot .ok) ws
  | read a => exact transact_keeps_bounds h ht fun _ _ => finish_keeps_bounds slot _
  | setBitsRead a m => exact transact_keeps_bounds h ht fun _ _ hu => become_keeps_bounds slot 0 hu trivial
  | initPowerOff => cases ht; exact become_keeps_bounds slot _ (h.of_host rfl) trivial
  | initPowerOn => cases ht; exact become_keeps_bounds slot _ (h.of_host rfl) trivial
  | initWrites ws =>
    cases ws with
    | nil => cases ht; exact finishInit_keeps_bounds slot h
    | cons w ws =>
      exact transact_keeps_bounds h ht fun _ _ =>
        afterWrites_keeps_bounds slot (mk := .initWrites) (fun _ => trivial) (fun _ => finishInit_keeps_bounds slot) ws
  | modeRequest x m =>
    obtain ⟨u, hu, e⟩ := onNext_eq_next.mp ht
    cases e
    exact become_keeps_bounds slot _ (h.of_host (exec_decode_kept (.cmd3 _) hu).host) trivial
  | modePoll x =>
    cases ht
    split
    · exact become_keeps_bounds slot _ h trivial
    · split <;> exact finish_keeps_bounds slot _ h
  | sendClearRead c load => exact transact_keeps_bounds h ht fun _ _ hu => become_keeps_bounds slot 0 hu hb
  | sendClearWrite c load b => exact transact_keeps_bounds h ht fun _ _ hu => become_keeps_bounds slot 0 hu hb
  | sendLoad c load =>
    obtain ⟨hc, hlen⟩ := hb
    cases load with
    | nil => exact transact_keeps_bounds h ht fun _ _ hu => become_keeps_bounds slot 0 hu hc
    | cons b load =>
      have hlen' : load.length ≤ 64 := (Nat.le_succ _).trans hlen
      exact transact_keeps_bounds h ht fun _ _ hu => become_keeps_bounds slot 0 hu ⟨hc, hlen'⟩
  | sendGoWrite c b => exact transact_keeps_bounds h ht fun _ _ hu => become_keeps_bounds slot 0 hu hb
  | sendLevel c => exact transact_keeps_bounds h ht fun b _ => afterLevel_keeps_bounds slot hb b
  | sendPop c n =>
    obtain ⟨hc, hn⟩ := hb
    exact transact_keeps_bounds h ht fun b _ => afterPop_keeps_bounds slot hc hn b
  | sendErr c timedOut => exact transact_keeps_bounds h ht fun _ _ => finish_keeps_bounds slot _

/-! ## The calls -/

theorem withAddress_keeps_bounds {address : Nat} {k : RegAddr → State → State} {s t : State}
    (ht : withAddress address k s = .next t) (hk : ∀ a, (k a s).HostBounded) : t.HostBounded := by
  unfold withAddress at ht
  split at ht
  · cases ht
  · cases ht
    exact hk _

@[simp] theorem loadBytes_length (out : List Byte) (n draws : Nat) : (loadBytes out n draws).length = n := by
  simp [loadBytes]

/-- The checks of R208 establish the bounds of a transfer before it starts. -/
theorem startSend_keeps_bounds (slot : Slot) (x : Chan) (out : List Byte) (n expected : Nat) {s : State}
    (h : s.HostBounded) : (startSend slot x out n expected s).HostBounded := by
  unfold startSend
  split
  · exact finish_keeps_bounds slot _ h
  · split
    · exact finish_keeps_bounds slot _ h
    · rename_i hlen
      obtain ⟨hn, he⟩ : n ≤ 64 ∧ expected ≤ 64 := by simpa [Config.maxMsgLength] using hlen
      refine become_keeps_bounds slot _ (h.of_host rfl) ⟨⟨Nat.zero_le _, he⟩, ?_⟩
      rwa [loadBytes_length]

theorem startCall_keeps_bounds {caller : Nat} {c : HostCall} {s t : State} (h : s.HostBounded)
    (ht : startCall caller c s = .next t) : t.HostBounded := by
  unfold startCall at ht
  cases c with
  | writeRegister address v => exact withAddress_keeps_bounds ht fun _ => become_keeps_bounds _ _ h trivial
  | readRegister address => exact withAddress_keeps_bounds ht fun _ => become_keeps_bounds _ _ h trivial
  | setBits address m => exact withAddress_keeps_bounds ht fun _ => become_keeps_bounds _ _ h trivial
  | reset => cases ht; exact become_keeps_bounds _ _ h trivial
  | initPorts => cases ht; exact become_keeps_bounds _ _ h trivial
  | getPort x => cases ht; exact answer_keeps_bounds _ _ h
  | setMode x m => cases ht; exact become_keeps_bounds _ _ h trivial
  | sendIOLData x out n expected => cases ht; exact startSend_keeps_bounds _ x out n expected h

/-! ## Events -/

/-- Every event keeps the bounds: only a tick, a call and a step of a sequence touch the host side (R8, R99). -/
theorem runEvent_keeps_bounds {e : Event} {s t : State} (h : s.HostBounded) (ht : runEvent e s = .next t) :
    t.HostBounded := by
  cases e with
  | spi clocks sdi st => exact h.of_host (deliverSpi_kept ht).host
  | cmd3 w => exact h.of_host (exec_decode_kept (.cmd3 w) ht).host
  | tick => cases ht; exact tickAll_keeps_bounds h
  | pulse x => exact h.of_host (pulseStep_kept ht).host
  | lineWurq x => cases ht; exact h.of_host (setIrq_kept _ s).host
  | lineRxChar x b p f => cases ht; exact h.of_host (lineRxChar_kept x b p f s).host
  | lineRxEnd x => cases ht; exact h.of_host (lineRxEnd_kept x s).host
  | lineNoReply x => cases ht; exact h.of_host (lineNoReply_kept x s).host
  | cycleErr x => cases ht; exact h.of_host (latchFault_kept x _ s).host
  | statusEvent st fA fB => cases ht; exact h.of_host rfl
  | powerOnReset => cases ht; exact h.of_host rfl
  | hostCall caller c => exact startCall_keeps_bounds h (hostCall_eq_next ht).1
  | hostStep slot st =>
    obtain ⟨task, htask, hr⟩ := hostStep_eq_next ht
    exact runTask_keeps_bounds h (h slot _ htask) hr

/-- Settles O49: a step is the urgent pulse, nothing, or the event at the head of the agenda (`step_eq_next`), and each keeps
the bounds. -/
theorem hostTransfersStayInBounds : Obligations.HostTransfersStayInBounds := by
  intro s t h ht
  rcases step_eq_next ht with ⟨x, hp⟩ | ⟨-, rfl⟩ | ⟨e, rest, -, he⟩
  · exact h.of_host (pulseStep_kept hp).host
  · exact h
  · exact runEvent_keeps_bounds (s := { s with agenda := rest }) (h.of_host rfl) he

end Sys2Proof.Machine
end

section
/-!
The calls of 43_host_sequences.md that answer or start at once (R203, R206, R208), and the result of a transfer (R210).
-/

namespace Sys2Proof.Machine

open Sys2Proof

/-! ## The result of a transfer -/

/-- The bit number of a fault flag in CQErr, bit 7 transmission down to bit 0 parity (R23). -/
def CqErrFlag.bit : CqErrFlag → Nat
  | .transmission => 7 | .cycle => 6 | .txChecksum => 5 | .txSize => 4
  | .rxChecksum => 3 | .rxSize => 2 | .frame => 1 | .parity => 0

theorem CqErrFlag.mask_eq_twoPow (k : CqErrFlag) : k.mask = BitVec.twoPow 8 k.bit := by cases k <;> rfl

theorem CqErrFlag.mask_ne_zero (k : CqErrFlag) : k.mask ≠ 0#8 := by cases k <;> decide

theorem CqErrFlag.mem_all (k : CqErrFlag) : k ∈ CqErrFlag.all := by cases k <;> decide

/-- A flag is decoded exactly when its bit is set (R210). -/
theorem mem_errorFlagsOf (e : Byte) (k : CqErrFlag) : k ∈ errorFlagsOf e ↔ e.getLsbD k.bit = true := by
  have hbit : e &&& k.mask = if e.getLsbD k.bit = true then k.mask else 0 := by
    rw [CqErrFlag.mask_eq_twoPow, BitVec.and_twoPow]
    rfl
  simp only [errorFlagsOf, List.mem_filter, k.mem_all, true_and, bne_iff_ne, hbit]
  split <;> simp [k.mask_ne_zero, *]

/-- Settles O54: the flags by `mem_errorFlagsOf`. -/
theorem transferResultDecodesTheFlags : Obligations.TransferResultDecodesTheFlags := by
  intro e got expected
  refine ⟨by simp [transferResult], fun k => ?_, fun k => ?_⟩
  · refine (mem_errorFlagsOf e k).trans ?_
    cases k <;> rfl
  · cases k <;> rfl

/-! ## Calls into a free slot -/

/-- A call into a free slot starts (R211). -/
theorem hostCall_of_free {caller : Nat} {c : HostCall} {s : State} (h : s.host.task (c.slot caller) = none) :
    hostCall caller c s = startCall caller c s := by
  rw [hostCall, h]
  exact ite_self _

/-- Every register address is in range, and names that register (R60, R201). -/
theorem withAddress_toNat (a : RegAddr) (k : RegAddr → State → State) (s : State) :
    withAddress a.toNat k s = .next (k a s) := by
  have hmax : ¬0x1F < a.toNat := by have := a.isLt; omega
  rw [withAddress, if_neg hmax, BitVec.ofNat_toNat, BitVec.setWidth_eq]

/-- Settles O60: `getPort` answers in any slot; SETBITS starts in its caller's, which `setTask` parts from the others. -/
theorem chipLevelCallsDoNotWaitForEachOther : Obligations.ChipLevelCallsDoNotWaitForEachOther := by
  intro s caller
  refine ⟨fun x => rfl, fun a m hfree => ?_⟩
  refine ⟨s.host.setTask (.chip caller) (some { task := .setBitsRead a m, wait := 0 }), ?_, ?_, fun slot hslot => ?_,
    setTask_portsInit .., setTask_spiLock .., setTask_returns ..⟩
  · exact (hostCall_of_free (c := .setBits a.toNat m) hfree).trans
      (withAddress_toNat a (fun a => become (.chip caller) (.setBitsRead a m) 0) s)
  · rw [setTask_task, if_pos rfl]
  · rw [setTask_task, if_neg hslot]

/-! ## The checks of `sendIOLData` -/

theorem startSend_not_established {slot : Slot} {x : Chan} {s : State} (h : (s.chan x).wuState ≠ .established)
    (out : List Byte) (n e : Nat) : startSend slot x out n e s = finish slot .notEstablished s := if_pos h

theorem startSend_invalid_length {slot : Slot} {x : Chan} {s : State} {n e : Nat}
    (h : (s.chan x).wuState = .established) (hlen : 64 < n ∨ 64 < e) (out : List Byte) :
    startSend slot x out n e s = finish slot .invalidLength s :=
  (if_neg (not_not_intro h)).trans (if_pos hlen)

/-- Past the checks the transfer starts with the read of CQCtrlX (R203, R209). -/
theorem startSend_starts {slot : Slot} {x : Chan} {s : State} {n e : Nat} (h : (s.chan x).wuState = .established)
    (hn : n ≤ 64) (he : e ≤ 64) (out : List Byte) :
    startSend slot x out n e s =
      become slot (.sendClearRead { x := x, expected := e, got := [], elapsed := 0 } (loadBytes out n s.draws)) 0
        { s with draws := s.draws + n } :=
  (if_neg (not_not_intro h)).trans (if_neg (not_or_intro (Nat.not_lt.mpr hn) (Nat.not_lt.mpr he)))

/-- From a buffer that is long enough its first `n` bytes are loaded. -/
theorem loadBytes_of_le {out : List Byte} {n : Nat} (h : n ≤ out.length) (draws : Nat) :
    loadBytes out n draws = out.take n := by
  refine List.ext_getElem ?_ fun i h1 h2 => ?_
  · rw [loadBytes_length, List.length_take, min_eq_left h]
  · have hi : i < out.length := (loadBytes_length out n draws ▸ h1).trans_le h
    simp [loadBytes, hi]

/-- Settles O53: the two checks in their order, and the transfer that starts past them. -/
theorem sendChecksComeBeforeAnyTransaction : Obligations.SendChecksComeBeforeAnyTransaction := by
  intro s caller x bytes n e hfree
  have hcall : runEvent (.hostCall caller (.sendIOLData x bytes n e)) s = .next (startSend (.chan x) x bytes n e s) :=
    hostCall_of_free (c := .sendIOLData x bytes n e) hfree
  rw [hcall]
  refine ⟨fun h => ?_, fun h hlen => ?_, fun h hn he => ?_⟩
  · rw [startSend_not_established h]
  · rw [startSend_invalid_length h hlen]
  · rw [startSend_starts h hn he]
    exact ⟨_, _, _, rfl, loadBytes_length .., fun hle => loadBytes_of_le hle _, rfl, rfl⟩

end Sys2Proof.Machine
end

section
/-!
One action of a host sequence: the step it is, and what its transaction returns by status (R201, R202, R115).
-/

namespace Sys2Proof.Machine

open Sys2Proof

/-! ## The action of a slot -/

/-- A sequence whose wait is over acts (R200). -/
theorem hostStep_of_task {slot : Slot} {task : Task} {s : State}
    (h : s.host.task slot = some { task := task, wait := 0 }) (st : SpiStatus) :
    hostStep slot st s = runTask slot task st s := by
  simp only [hostStep, h, if_true]

/-- A sequence that still waits does not act (R200). -/
theorem hostStep_of_waiting {slot : Slot} {task : Task} {n : Nat} {s : State}
    (h : s.host.task slot = some { task := task, wait := n + 1 }) (st : SpiStatus) :
    hostStep slot st s = .fault (.hostWaiting slot) := by
  simp [hostStep, h]

/-- With an action of a slot next, the step is the action of its task. -/
theorem step_hostStep {slot : Slot} {task : Task} {st : SpiStatus} {s : State} {rest : List Event}
    (ha : s.agenda = .hostStep slot st :: rest) (ht : s.host.task slot = some { task := task, wait := 0 }) :
    step s = runTask slot task st { s with agenda := rest } :=
  (step_of_agenda_cons ha (by simp)).trans (hostStep_of_task (s := { s with agenda := rest }) ht st)

/-! ## A transaction by its status -/

/-- The host sees the status of the transaction (R110). -/
theorem access_exchangeOk {clocks : Nat} {sdi : BitVec 16} {st : SpiStatus} {s t : State}
    (h : access clocks sdi st s = .next t) : t.spi.exchangeOk = decide (st = .ok) := by
  unfold access at h
  split at h
  · obtain ⟨u, -, e⟩ := onNext_eq_next.mp h
    cases e
    rfl
  · obtain ⟨u, -, e⟩ := onNext_eq_next.mp h
    cases e
    rfl
  · cases h
    rfl

theorem deliverSpi_exchangeOk {clocks : Nat} {sdi : BitVec 16} {st : SpiStatus} {s t : State}
    (h : deliverSpi clocks sdi st s = .next t) : t.spi.exchangeOk = decide (st = .ok) := by
  obtain ⟨-, -, u, hu, rfl⟩ := deliverSpi_eq_next h
  exact (congrArg SpiPort.exchangeOk (releaseLock_spi u)).trans (access_exchangeOk hu)

section Transact

variable {slot : Slot} {rw : BitVec 1} {a : RegAddr} {d : Byte} {s u : State} (k : Byte → State → State)

/-- With status ok the sequence goes on with the byte on SDO (R201, R202). -/
theorem transact_of_ok (h : deliverSpi 16 (accessWord rw a d s) .ok s = .next u) :
    transact slot rw a d .ok k s = .next (k u.spi.sdoData u) := by
  rw [transact, h, onNext_next, deliverSpi_exchangeOk h]
  rfl

/-- With status fail the sequence returns `BusError`, whether or not the access was performed (R115, R201, R202). -/
theorem transact_of_fail {p : Bool} (h : deliverSpi 16 (accessWord rw a d s) (.fail p) s = .next u) :
    transact slot rw a d (.fail p) k s = .next (finish slot .busError u) := by
  rw [transact, h, onNext_next, deliverSpi_exchangeOk h]
  rfl

end Transact

/-- A transaction of 16 clocks runs its decoded word (R97 (c)). -/
theorem clockedIn_sixteen (sdi : BitVec 16) (s : State) : clockedIn 16 sdi s = exec (decodeSpi sdi) s := by
  simp [clockedIn, decodeClocks]

/-- A register read at the block's own address completes, whatever its status (R112). -/
theorem deliverSpi_read_completes {s : State} (hb : s.boot = .ready) (hl : s.host.spiLock = false) (a : RegAddr) (d : Byte)
    (st : SpiStatus) : ∃ u, deliverSpi 16 (accessWord 1#1 a d s) st s = .next u := by
  obtain ⟨t, ht⟩ : ∃ t, clockedIn 16 (accessWord 1#1 a d s) (acquireLock s) = .next t := by
    rw [clockedIn_sixteen, accessWord, decodeSpi_read, exec_readInstr]
    exact ⟨_, spiRead_own (s := acquireLock s) rfl⟩
  rw [deliverSpi_ready hb hl]
  unfold access
  split
  · rw [ht]; exact ⟨_, rfl⟩
  · rw [ht]; exact ⟨_, rfl⟩
  · exact ⟨_, rfl⟩

/-- Settles O52: by the status of the transaction, which for the read always completes. -/
theorem registerAccessOutcomes : Obligations.RegisterAccessOutcomes := by
  intro s caller a v hb hl
  constructor
  · intro ht
    have hact : ∀ st, runEvent (.hostStep (.chip caller) st) s =
        transact (.chip caller) 1#1 a 0x00 st (fun b => finish (.chip caller) (.byte b)) s := hostStep_of_task ht
    refine ⟨?_, fun p => ?_⟩
    · obtain ⟨u, hu⟩ := deliverSpi_read_completes hb hl a 0x00 .ok
      exact ⟨_, u, hu, (hact .ok).trans (transact_of_ok _ hu), rfl⟩
    · obtain ⟨u, hu⟩ := deliverSpi_read_completes hb hl a 0x00 (.fail p)
      exact ⟨_, u, hu, (hact (.fail p)).trans (transact_of_fail _ hu), rfl⟩
  · intro ht
    have hact : ∀ st, runEvent (.hostStep (.chip caller) st) s =
        transact (.chip caller) 0#1 a v st (fun _ => finish (.chip caller) .ok) s := hostStep_of_task ht
    exact ⟨fun u hu => (hact .ok).trans (transact_of_ok _ hu), fun p u hu => (hact (.fail p)).trans (transact_of_fail _ hu)⟩

end Sys2Proof.Machine
end

section
/-!
The host sequences that only write: `reset()` (43_host_sequences.md R204), and `initPorts` with the two waits of the start-up
sequence before its writes (R205, 70_reset_and_hazards.md R264).
-/

namespace Sys2Proof.Machine

open Sys2Proof

/-! ## A sequence in its slot -/

/-- The sequence in `slot` stands before `task` with that many ticks to wait; the lock is free, and `returned` is what the
host has been returned. -/
structure HostSide.Stands (h : HostSide) (slot : Slot) (task : Task) (wait : Nat) (returned : List (Slot × HostResult)) :
    Prop where
  lock : h.spiLock = false
  task : h.task slot = some { task := task, wait := wait }
  returns : h.returns = returned

section Stands

variable {h : HostSide} {slot : Slot} {task : Task} {wait : Nat} {returned : List (Slot × HostResult)}

theorem HostSide.Stands.setTask (hs : h.Stands slot task wait returned) (task' : Task) (wait' : Nat) :
    (h.setTask slot (some { task := task', wait := wait' })).Stands slot task' wait' returned where
  lock := (setTask_spiLock ..).trans hs.lock
  task := (setTask_task ..).trans (if_pos rfl)
  returns := (setTask_returns ..).trans hs.returns

theorem HostSide.Stands.tick (hs : h.Stands slot task (wait + 1) returned) : h.tick.Stands slot task wait returned where
  lock := hs.lock
  task := by
    rw [tick_task, hs.task]
    rfl
  returns := hs.returns

end Stands

/-! ## A register write by a host sequence -/

/-- The state after a transaction with status ok whose access is `f` and which latched `cmd`, with `rest` to come. -/
def State.accessed (f : State → State) (cmd : Byte) (rest : List Event) (s : State) : State :=
  releaseLock (setExchange true (f (spiShift cmd (acquireLock { s with agenda := rest }))))

/-- The sequence in `slot` can make the transaction of `task` now, and `events` are to come. -/
structure Acting (slot : Slot) (task : Task) (returned : List (Slot × HostResult)) (events : List Event) (s : State) :
    Prop where
  boot : s.boot = .ready
  host : s.host.Stands slot task 0 returned
  agenda : s.agenda = events

/-- A register write at the block's own address with status ok, for a write that always completes (R111). -/
theorem deliverSpi_write {a : RegAddr} {d : Byte} {f : State → State} {s : State}
    (hw : ∀ v, regWrite (Reg.ofAddr a) d v = .next (f v)) (hb : s.boot = .ready) (hl : s.host.spiLock = false) :
    ∃ cmd, deliverSpi 16 (accessWord 0#1 a d s) .ok s = .next (s.accessed f cmd s.agenda) := by
  refine ⟨commandByte 0#1 s.params.chipAddr (Reg.ofAddr a).addr, ?_⟩
  rw [deliverSpi_ok hb hl, accessWord, decodeSpi_write, exec_writeInstr]
  exact congrArg (onNext · _) ((spiWrite_own (s := acquireLock s) rfl).trans (hw _))

section Acting

variable {slot : Slot} {task : Task} {returned : List (Slot × HostResult)} {rest : List Event} {s : State}

/-- A step that writes a register: the sequence goes on with `k` (R201). -/
theorem Acting.write {a : RegAddr} {d : Byte} {f k : State → State}
    (h : Acting slot task returned (.hostStep slot .ok :: rest) s)
    (hrun : ∀ v, runTask slot task .ok v = transact slot 0#1 a d .ok (fun _ => k) v)
    (hw : ∀ v, regWrite (Reg.ofAddr a) d v = .next (f v)) :
    ∃ cmd, step s = .next (k (s.accessed f cmd rest)) ∧ Kept { s with agenda := rest } (s.accessed f cmd rest) := by
  obtain ⟨cmd, hd⟩ := deliverSpi_write (s := { s with agenda := rest }) hw h.boot h.host.lock
  refine ⟨cmd, ?_, deliverSpi_kept hd⟩
  rw [step_hostStep h.agenda h.host.task, hrun, transact_of_ok _ hd]
  rfl

/-- A step that writes a register with more of the sequence to come. -/
theorem Acting.write_become {a : RegAddr} {d : Byte} {f : State → State} {task' : Task}
    (h : Acting slot task returned (.hostStep slot .ok :: rest) s)
    (hrun : ∀ v, runTask slot task .ok v = transact slot 0#1 a d .ok (fun _ => become slot task' 0) v)
    (hw : ∀ v, regWrite (Reg.ofAddr a) d v = .next (f v)) :
    ∃ cmd, step s = .next (become slot task' 0 (s.accessed f cmd rest)) ∧
      Acting slot task' returned rest (become slot task' 0 (s.accessed f cmd rest)) := by
  obtain ⟨cmd, hstep, hk⟩ := h.write hrun hw
  have hhost : (s.accessed f cmd rest).host.Stands slot task 0 returned := by
    rw [hk.host]
    exact h.host
  exact ⟨cmd, hstep, hk.boot.trans h.boot, hhost.setTask task' 0, hk.agenda⟩

end Acting

/-! ## `reset()` -/

/-- Settles O55: two register resets, and the framer enable of each channel written over the reset values. -/
theorem hostResetEndsInResetWithFramersEnabled : Obligations.HostResetEndsInResetWithFramersEnabled := by
  intro s caller hboot hlock htask hagenda
  have h0 : Acting (.chip caller) (.writes resetWrites) s.host.returns (List.replicate 4 (.hostStep (.chip caller) .ok)) s :=
    ⟨hboot, ⟨hlock, htask, rfl⟩, hagenda⟩
  obtain ⟨c1, hs1, h1⟩ := h0.write_become (f := blockReset) (fun _ => rfl) (fun _ => rfl)
  obtain ⟨c2, hs2, h2⟩ := h1.write_become (f := blockReset) (fun _ => rfl) (fun _ => rfl)
  obtain ⟨c3, hs3, h3⟩ := h2.write_become (f := fun v => v.setChan .a { v.chA with framerEn := true })
    (fun _ => rfl) (fun _ => rfl)
  obtain ⟨c4, hs4, hk⟩ := h3.write (f := fun v => v.setChan .b { v.chB with framerEn := true })
    (k := finish (.chip caller) .ok) (fun _ => rfl) (fun _ => rfl)
  refine ⟨_, (run_succ 3 hs1).trans ((run_succ 2 hs2).trans ((run_succ 1 hs3).trans (run_succ 0 hs4))), fun x => ?_,
    rfl, rfl, rfl, rfl, rfl, ?_, ?_⟩
  · cases x <;> constructor <;> rfl
  · exact (finish_task ..).trans (if_pos rfl)
  · exact congrArg (· ++ [(Slot.chip caller, HostResult.ok)]) ((congrArg HostSide.returns hk.host).trans h3.host.returns)

/-! ## The waits of the start-up sequence -/

/-- The state with the start-up sequence and the host at other places, and other events to come. -/
def State.startingUp (b : BootPhase) (h : HostSide) (l : List Event) (s : State) : State :=
  { s with boot := b, host := h, agenda := l }

@[simp] theorem startingUp_chan (b : BootPhase) (h : HostSide) (l : List Event) (s : State) (x : Chan) :
    (s.startingUp b h l).chan x = s.chan x := by
  cases x <;> rfl

/-- The boot wait with `k` ms left (R264 (3)). -/
def BootPhase.left : Nat → BootPhase
  | 0 => .ready
  | k + 1 => .booting (k + 1)

theorem BootPhase.left_of_pos {k : Nat} (h : 0 < k) : BootPhase.left k = .booting k := by
  cases k with
  | zero => omega
  | succ k => rfl

theorem BootPhase.tick_left (k : Nat) : (BootPhase.left (k + 1)).tick = .left k := by
  cases k <;> rfl

/-- The start-up phase is `b`, the sequence in `slot` does not act, and no transaction has a meaning (R264). -/
def State.HeldIn (u : State) (b : BootPhase) (slot : Slot) : Prop :=
  u.boot = b ∧ (∀ st, stops (runEvent (.hostStep slot st) u)) ∧
    ∀ clocks sdi st, runEvent (.spi clocks sdi st) u = .refused .beforeBootup

/-- A sequence that waits, in a phase before the end of the boot wait. -/
theorem heldIn_of_waits {u : State} {slot : Slot} {task : Task} {k : Nat} {returned : List (Slot × HostResult)}
    (hs : u.host.Stands slot task (k + 1) returned) (hb : u.boot ≠ .ready) : u.HeldIn u.boot slot := by
  refine ⟨rfl, fun st t => ?_, fun clocks sdi st => ?_⟩
  · rw [runEvent, hostStep_of_waiting hs.task]
    nofun
  · rw [runEvent, deliverSpi, if_neg (ne_true_of_eq_false hs.lock), if_pos hb]

section Waits

variable {s : State} {slot : Slot} {task : Task} {returned : List (Slot × HostResult)} {h : HostSide} {l : List Event}

/-- With both sequencers at rest a Tick counts the waits and nothing else (R139, R200). -/
theorem step_tick_of_rest (hrest : ∀ x, (s.chan x).wuState ≠ .pulsing ∧ (s.chan x).wuState ≠ .awaitingResponse)
    (b : BootPhase) (h : HostSide) (l : List Event) :
    step (s.startingUp b h (.tick :: l)) = .next (s.startingUp b.tick h.tick l) := by
  have hpulse : ∀ x, ((s.startingUp b h (.tick :: l)).chan x).wuState ≠ .pulsing := fun x => by
    rw [startingUp_chan]
    exact (hrest x).1
  have hwait : ∀ x, ((s.startingUp b h l).chan x).wuState ≠ .awaitingResponse := fun x => by
    rw [startingUp_chan]
    exact (hrest x).2
  refine (step_tick rfl hpulse).trans (congrArg Host.Outcome.next ?_)
  refine (tickAll_of_other_rests (x := .a) (s := s.startingUp b h l) (hwait _)).trans ?_
  rw [tickChan_of_not_awaiting (hwait .a)]
  rfl

variable {phase : Nat → BootPhase}
  (hrest : ∀ x, (s.chan x).wuState ≠ .pulsing ∧ (s.chan x).wuState ≠ .awaitingResponse)
  (hphase : ∀ k, (phase (k + 1)).tick = phase k)

include hrest hphase

/-- Of a wait of `n + k` ticks `n` pass; the start-up phase, which depends on the ticks left, goes with it. -/
theorem run_ticks {n k : Nat} (hs : h.Stands slot task (n + k) returned) :
    ∃ h', Host.Core.run Sys2Proof.core n (s.startingUp (phase (n + k)) h (List.replicate (n + k) .tick ++ l)) =
      .next (s.startingUp (phase k) h' (List.replicate k .tick ++ l)) ∧ h'.Stands slot task k returned := by
  induction n generalizing h with
  | zero =>
    rw [Nat.zero_add] at hs ⊢
    exact ⟨h, rfl, hs⟩
  | succ n ih =>
    rw [Nat.add_right_comm] at hs ⊢
    obtain ⟨h', hrun, hs'⟩ := ih hs.tick
    refine ⟨h', (run_succ n ?_).trans hrun, hs'⟩
    rw [← hphase (n + k)]
    exact step_tick_of_rest hrest _ h _

/-- A wait to its end. -/
theorem run_wait {m : Nat} (hs : h.Stands slot task m returned) :
    ∃ h', Host.Core.run Sys2Proof.core m (s.startingUp (phase m) h (List.replicate m .tick ++ l)) =
      .next (s.startingUp (phase 0) h' l) ∧ h'.Stands slot task 0 returned :=
  run_ticks (n := m) (k := 0) hrest hphase hs

/-- Before the end of a wait. -/
theorem run_within_wait (hready : ∀ k, phase (k + 1) ≠ .ready) {m n : Nat} (hn : n < m)
    (hs : h.Stands slot task m returned) :
    ∃ u, Host.Core.run Sys2Proof.core n (s.startingUp (phase m) h (List.replicate m .tick ++ l)) = .next u ∧
      u.HeldIn (phase (m - n)) slot := by
  obtain ⟨k, rfl⟩ : ∃ k, m = n + (k + 1) := ⟨m - n - 1, by omega⟩
  obtain ⟨h', hrun, hs'⟩ := run_ticks (l := l) hrest hphase hs
  rw [Nat.add_sub_cancel_left]
  exact ⟨_, hrun, heldIn_of_waits (u := s.startingUp (phase (k + 1)) h' _) hs' (hready k)⟩

end Waits

/-! ## `initPorts` -/

/-- The two bring-up writes of `initPorts` (R205). -/
def initWritesOf (p : Params) : List (RegAddr × Byte) := [(0x1D, p.initClock), (0x03, p.initIrqEn)]

section InitPorts

variable {s : State} {slot : Slot} {returned : List (Slot × HostResult)} {h : HostSide} {l : List Event}

/-- The bring-up writes end `initPorts` (R205). -/
theorem run_initWrites (hs : h.Stands slot (.initWrites (initWritesOf s.params)) 0 returned) :
    ∃ t, Host.Core.run Sys2Proof.core 2 (s.startingUp .ready h [.hostStep slot .ok, .hostStep slot .ok]) = .next t ∧
      t.agenda = [] ∧ t.boot = .ready ∧ t.storage = { s.storage with clock := s.params.initClock } ∧
      t.interruptEn = s.params.initIrqEn ∧ t.host.portsInit = true ∧ t.host.task slot = none ∧
      t.host.returns = returned ++ [(slot, .ok)] := by
  have hact : Acting slot (.initWrites (initWritesOf s.params)) returned [.hostStep slot .ok, .hostStep slot .ok]
      (s.startingUp .ready h [.hostStep slot .ok, .hostStep slot .ok]) := ⟨rfl, hs, rfl⟩
  obtain ⟨c1, hclock, hact2⟩ := hact.write_become (f := storeReg .clock s.params.initClock) (fun _ => rfl) (fun _ => rfl)
  obtain ⟨c2, henable, hk⟩ := hact2.write (f := fun v => { v with interruptEn := s.params.initIrqEn })
    (k := finishInit slot) (fun _ => rfl) (fun _ => rfl)
  have hreturns := (congrArg HostSide.returns hk.host).trans hact2.host.returns
  refine ⟨_, (run_succ 1 hclock).trans (run_succ 0 henable), hk.agenda, hk.boot.trans hact2.boot, rfl, rfl,
    setTask_portsInit .., ?_, congrArg (· ++ [(slot, HostResult.ok)]) hreturns⟩
  exact (finish_task ..).trans (if_pos rfl)

variable (hrest : ∀ x, (s.chan x).wuState ≠ .pulsing ∧ (s.chan x).wuState ≠ .awaitingResponse)

section PowerOff

variable (hagenda : s.agenda = .hostStep slot .ok :: (List.replicate 1000 .tick ++ l))
  (hs : s.host.Stands slot .initPowerOff 0 returned)

include hagenda hs

/-- The first action disables sensor power (R264 (1)). -/
theorem step_initPowerOff :
    step s = .next (s.startingUp .sensorOff (s.host.setTask slot (some { task := .initPowerOn, wait := 1000 }))
      (List.replicate 1000 .tick ++ l)) := step_hostStep hagenda hs.task

include hrest

theorem run_powerOff :
    ∃ h', Host.Core.run Sys2Proof.core 1001 s = .next (s.startingUp .sensorOff h' l) ∧
      h'.Stands slot .initPowerOn 0 returned := by
  obtain ⟨h', hrun, hs'⟩ := run_wait (phase := fun _ => .sensorOff) (l := l) hrest (fun _ => rfl)
    (hs.setTask .initPowerOn 1000)
  exact ⟨h', (run_succ 1000 (step_initPowerOff hagenda hs)).trans hrun, hs'⟩

theorem run_within_powerOff {n : Nat} (hn : n < 1000) :
    ∃ u, Host.Core.run Sys2Proof.core (1 + n) s = .next u ∧ u.HeldIn .sensorOff slot := by
  obtain ⟨u, hrun, hheld⟩ := run_within_wait (phase := fun _ => .sensorOff) (l := l) hrest (fun _ => rfl) nofun hn
    (hs.setTask .initPowerOn 1000)
  exact ⟨u, (run_add 1 n (run_succ 0 (step_initPowerOff hagenda hs))).trans hrun, hheld⟩

end PowerOff

section Boot

variable (hs : h.Stands slot .initPowerOn 0 returned)

include hs

/-- The second action starts the boot wait (R264 (2), (3)). -/
theorem step_initPowerOn :
    step (s.startingUp .sensorOff h (.hostStep slot .ok :: (List.replicate 300 .tick ++ l))) =
      .next (s.startingUp (.left 300)
        (h.setTask slot (some { task := .initWrites (initWritesOf s.params), wait := 300 }))
        (List.replicate 300 .tick ++ l)) := step_hostStep (s := s.startingUp .sensorOff h _) rfl hs.task

include hrest

theorem run_boot :
    ∃ h', Host.Core.run Sys2Proof.core 301
        (s.startingUp .sensorOff h (.hostStep slot .ok :: (List.replicate 300 .tick ++ l))) =
        .next (s.startingUp .ready h' l) ∧ h'.Stands slot (.initWrites (initWritesOf s.params)) 0 returned := by
  obtain ⟨h', hrun, hs'⟩ := run_wait (phase := .left) (l := l) hrest BootPhase.tick_left
    (hs.setTask (.initWrites (initWritesOf s.params)) 300)
  exact ⟨h', (run_succ 300 (step_initPowerOn hs)).trans hrun, hs'⟩

theorem run_within_boot {n : Nat} (hn : n < 300) :
    ∃ u, Host.Core.run Sys2Proof.core (1 + n)
        (s.startingUp .sensorOff h (.hostStep slot .ok :: (List.replicate 300 .tick ++ l))) = .next u ∧
      u.HeldIn (.booting (300 - n)) slot := by
  obtain ⟨u, hrun, hheld⟩ := run_within_wait (phase := .left) (l := l) hrest BootPhase.tick_left nofun hn
    (hs.setTask (.initWrites (initWritesOf s.params)) 300)
  rw [BootPhase.left_of_pos (by omega)] at hheld
  exact ⟨u, (run_add 1 n (run_succ 0 (step_initPowerOn hs))).trans hrun, hheld⟩

end Boot

end InitPorts

/-- Settles O56: the power-off hold, the boot wait and the bring-up writes, one after the other. -/
theorem startUpTakesItsWaits : Obligations.StartUpTakesItsWaits := by
  intro s caller hlock htask hrest hagenda
  have hs : s.host.Stands (.chip caller) .initPowerOff 0 s.host.returns := ⟨hlock, htask, rfl⟩
  obtain ⟨h1, hoff, hs1⟩ := run_powerOff hrest hagenda hs
  obtain ⟨h2, hboot, hs2⟩ := run_boot hrest hs1
  obtain ⟨t, hwrites, ht⟩ := run_initWrites hs2
  refine ⟨fun n hn => run_within_powerOff hrest hagenda hs hn, fun n hn => ?_, t, ?_, ht⟩
  · obtain ⟨u, hrun, hheld⟩ := run_within_boot hrest hs1 hn
    rw [show 1002 + n = 1001 + (1 + n) by omega]
    exact ⟨u, (run_add 1001 (1 + n) hoff).trans hrun, hheld⟩
  · exact (run_add 1302 2 ((run_add 1001 301 hoff).trans hboot)).trans hwrites

end Sys2Proof.Machine
end

section
/-!
The statements of 70_reset_and_hazards.md about start-up (R264), the register reset (R262), and what no step but a power-on
reset undoes: the parameters and the trace that is out (R263). For the last, a host sequence reaches the block only by a
transaction or a mode request (R200); all else it does is on the host side (`HostMove`).
-/

namespace Sys2Proof.Machine

open Sys2Proof

/-! ## Before the boot wait has ended -/

theorem deliverSpi_before_ready {s : State} (hb : s.boot ≠ .ready) (hl : s.host.spiLock = false) (clocks : Nat)
    (sdi : BitVec 16) (st : SpiStatus) : deliverSpi clocks sdi st s = .refused .beforeBootup := by
  rw [deliverSpi, if_neg (ne_true_of_eq_false hl), if_pos hb]

/-- Settles O9: the start-up phase is looked at before the transaction is. -/
theorem noTransactionBeforeTheBootWait : Obligations.NoTransactionBeforeTheBootWait :=
  fun _ clocks sdi st hb hl => deliverSpi_before_ready hb hl clocks sdi st

/-! ## The register reset -/

theorem writeChanStat_of_rst {v : Byte} (h : v.getLsbD 7 = true) (x : Chan) (s : State) :
    writeChanStat x v s = blockReset s := if_pos h

/-- A ChanStat row with Rst = 1 is the register reset of the state its transaction leaves (R26, R262). -/
theorem exec_writeChanStat_of_rst {s : State} {chip : ChipAddr} {v : Byte} (hc : chip = s.params.chipAddr)
    (h7 : v.getLsbD 7 = true) (x : Chan) :
    exec (writeInstr (.chanStat x) chip v) s =
      .next (blockReset (spiShift (commandByte 0#1 chip (Reg.chanStat x).addr) s)) := by
  rw [exec_writeInstr, spiWrite_own hc, regWrite, writeChanStat_of_rst h7]

/-- Settles O26: both rows do the one register reset, which leaves R45's values in both channels. -/
theorem rstResetsTheWholeBlock : Obligations.RstResetsTheWholeBlock := by
  intro s x chip v hc h7
  have hexec := exec_writeChanStat_of_rst hc h7 x
  rw [← pairRow_eq fun y => writeInstr (.chanStat y) chip v] at hexec
  exact ⟨_, hexec, blockReset_chan_atReset _, rfl⟩

/-! ## What the host sequences do to the block -/

/-- `t` is `s` but for the host side, the start-up phase it decides, and the model's count of free values. -/
def OnHostSide (s t : State) : Prop := t = { s with host := t.host, boot := t.boot, draws := t.draws }

theorem finish_onHostSide (slot : Slot) (r : HostResult) (s : State) : OnHostSide s (finish slot r s) := rfl

theorem finishInit_onHostSide (slot : Slot) (s : State) : OnHostSide s (finishInit slot s) := rfl

theorem afterWrites_onHostSide (slot : Slot) (mk : List (RegAddr × Byte) → Task) {fin : State → State}
    (hfin : ∀ u, OnHostSide u (fin u)) (ws : List (RegAddr × Byte)) (s : State) :
    OnHostSide s (afterWrites slot mk fin ws s) := by
  cases ws with
  | nil => exact hfin s
  | cons w ws => rfl

theorem afterPops_onHostSide (slot : Slot) (c : SendCtx) (s : State) : OnHostSide s (afterPops slot c s) := by
  unfold afterPops
  split
  · rfl
  · split <;> rfl

theorem afterLevel_onHostSide (slot : Slot) (c : SendCtx) (lvl : Byte) (s : State) :
    OnHostSide s (afterLevel slot c lvl s) := by
  unfold afterLevel
  split
  · exact afterPops_onHostSide slot c s
  · rfl

theorem afterPop_onHostSide (slot : Slot) (c : SendCtx) (n : Nat) (b : Byte) (s : State) :
    OnHostSide s (afterPop slot c n b s) := by
  cases n with
  | zero => exact afterPops_onHostSide slot _ s
  | succ k => rfl

theorem startSend_onHostSide (slot : Slot) (x : Chan) (out : List Byte) (n expected : Nat) (s : State) :
    OnHostSide s (startSend slot x out n expected s) := by
  unfold startSend
  split
  · rfl
  · split <;> rfl

/-- What one action of a host sequence can be (R200): on the host side alone, or a transaction or a mode request with the
host going on from it. -/
inductive HostMove (s t : State) : Prop where
  | alone (h : OnHostSide s t)
  | transaction {w : BitVec 16} {st : SpiStatus} {u : State} (hu : deliverSpi 16 w st s = .next u) (h : OnHostSide u t)
  | modeRequest {w : BitVec 3} {u : State} (hu : deliverCmd3 w s = .next u) (h : OnHostSide u t)

theorem HostMove.of_next {s u t : State} (ht : (.next u : Outcome) = .next t) (h : OnHostSide s u) : HostMove s t := by
  injection ht with e
  exact .alone (e ▸ h)

theorem transact_hostMove {slot : Slot} {rw : BitVec 1} {a : RegAddr} {d : Byte} {st : SpiStatus}
    {k : Byte → State → State} {s t : State} (ht : transact slot rw a d st k s = .next t)
    (hk : ∀ b u, OnHostSide u (k b u)) : HostMove s t := by
  obtain ⟨u, hu, ⟨-, rfl⟩ | ⟨-, rfl⟩⟩ := transact_eq_next ht
  · exact .transaction hu (hk _ u)
  · exact .transaction hu rfl

/-- A running sequence touches the block by at most one transaction or mode request an action (R200 to R210). -/
theorem runTask_hostMove {slot : Slot} {task : Task} {st : SpiStatus} {s t : State}
    (ht : runTask slot task st s = .next t) : HostMove s t := by
  unfold runTask at ht
  cases task with
  | writes ws =>
    cases ws with
    | nil => exact .of_next ht rfl
    | cons w ws => exact transact_hostMove ht fun _ => afterWrites_onHostSide slot _ (finish_onHostSide slot .ok) ws
  | initWrites ws =>
    cases ws with
    | nil => exact .of_next ht rfl
    | cons w ws => exact transact_hostMove ht fun _ => afterWrites_onHostSide slot _ (finishInit_onHostSide slot) ws
  | initPowerOff | initPowerOn => exact .of_next ht rfl
  | modeRequest x m =>
    obtain ⟨u, hu, e⟩ := onNext_eq_next.mp ht
    injection e with e
    exact .modeRequest hu (e ▸ rfl)
  | modePoll x =>
    refine .of_next ht ?_
    split
    · rfl
    · split <;> rfl
  | sendLoad c load => cases load <;> exact transact_hostMove ht fun _ _ => rfl
  | sendLevel c => exact transact_hostMove ht (afterLevel_onHostSide slot c)
  | sendPop c n => exact transact_hostMove ht (afterPop_onHostSide slot c n)
  | read | setBitsRead | sendClearRead | sendClearWrite | sendGoWrite | sendErr =>
    exact transact_hostMove ht fun _ _ => rfl

theorem withAddress_hostMove {address : Nat} {k : RegAddr → State → State} {s t : State}
    (ht : withAddress address k s = .next t) (hk : ∀ a, OnHostSide s (k a s)) : HostMove s t := by
  unfold withAddress at ht
  split at ht
  · cases ht
  · exact .of_next ht (hk _)

theorem startCall_hostMove {caller : Nat} {c : HostCall} {s t : State} (ht : startCall caller c s = .next t) :
    HostMove s t := by
  unfold startCall at ht
  cases c with
  | writeRegister | readRegister | setBits => exact withAddress_hostMove ht fun _ => rfl
  | reset | initPorts | getPort | setMode => exact .of_next ht rfl
  | sendIOLData x out n expected => exact .of_next ht (startSend_onHostSide _ x out n expected s)

/-! ## The parameters and the trace -/

/-- From `s` to `t` no parameter changed and the trace was at most appended to. -/
structure TraceGrows (s t : State) : Prop where
  params : t.params = s.params
  out : ∃ es, t.out = s.out ++ es

theorem Kept.traceGrows {s t : State} (h : Kept s t) : TraceGrows s t := ⟨h.params, h.out⟩

/-- The host side holds neither the parameters nor the trace. -/
theorem TraceGrows.of_onHostSide {s u t : State} (hu : TraceGrows s u) (h : OnHostSide u t) : TraceGrows s t := by
  rw [h]
  exact ⟨hu.params, hu.out⟩

theorem HostMove.traceGrows {s t : State} (h : HostMove s t) : TraceGrows s t := by
  cases h with
  | alone h => exact (Kept.refl s).traceGrows.of_onHostSide h
  | transaction hu h => exact (deliverSpi_kept hu).traceGrows.of_onHostSide h
  | modeRequest hu h => exact (exec_decode_kept (.cmd3 _) hu).traceGrows.of_onHostSide h

theorem TraceGrows.of_next {s u t : State} (ht : (.next u : Outcome) = .next t) (h : TraceGrows s u) :
    TraceGrows s t := by
  injection ht with e
  exact e ▸ h

theorem runEvent_traceGrows {e : Event} {s t : State} (he : e ≠ .powerOnReset) (ht : runEvent e s = .next t) :
    TraceGrows s t := by
  cases e with
  | spi clocks sdi st => exact (deliverSpi_kept ht).traceGrows
  | cmd3 w => exact (exec_decode_kept (.cmd3 w) ht).traceGrows
  | tick => exact .of_next ht ((tickSequencers_kept s).traceGrows.of_onHostSide rfl)
  | pulse x => exact (pulseStep_kept ht).traceGrows
  | lineWurq x => exact .of_next ht (setIrq_kept _ s).traceGrows
  | lineRxChar x b p f => exact .of_next ht (lineRxChar_kept x b p f s).traceGrows
  | lineRxEnd x => exact .of_next ht (lineRxEnd_kept x s).traceGrows
  | lineNoReply x => exact .of_next ht (lineNoReply_kept x s).traceGrows
  | cycleErr x => exact .of_next ht (latchFault_kept x _ s).traceGrows
  | statusEvent st fA fB => exact .of_next ht ⟨rfl, [], by simp [statusEvent]⟩
  | powerOnReset => exact absurd rfl he
  | hostCall caller c => exact (startCall_hostMove (hostCall_eq_next ht).1).traceGrows
  | hostStep slot st =>
    obtain ⟨task, -, hr⟩ := hostStep_eq_next ht
    exact (runTask_hostMove hr).traceGrows

/-- Settles O50: a step is the urgent pulse, nothing, or the event at the head of the agenda (`step_eq_next`); a power-on
reset, which empties the trace, keeps the parameters all the same (R261, R263). -/
theorem parametersAndTraceAreKept : Obligations.ParametersAndTraceAreKept := by
  intro s t ht
  rcases step_eq_next ht with ⟨x, hp⟩ | ⟨-, rfl⟩ | ⟨e, rest, ha, he⟩
  · exact ⟨(pulseStep_kept hp).params, fun _ => (pulseStep_kept hp).out⟩
  · exact ⟨rfl, fun _ => (Kept.refl t).out⟩
  · by_cases hpor : e = .powerOnReset
    · subst hpor
      injection he with e
      exact ⟨e ▸ rfl, fun hne => absurd (by rw [ha]; rfl) hne⟩
    · have hgrows : TraceGrows { s with agenda := rest } t := runEvent_traceGrows hpor he
      exact ⟨hgrows.params, fun _ => hgrows.out⟩

end Sys2Proof.Machine
end
